-- ==== Sys2Proof/Word.lean ====
section
/-! DEFINITION. The word types of the FIU (spec/00_scope.md R15): unsigned integers of 8, 16 and 32 bits. -/

namespace Sys2Proof

/-- A byte of a frame (u8). -/
abbrev Byte := BitVec 8

/-- A half word: the checksum and the LEN register (u16). -/
abbrev Half := BitVec 16

/-- A word: a register, a command word, a sequence number, a CRC (u32). -/
abbrev Word := BitVec 32

/-- An offset in the FIU's 4 KiB window (spec/20_memory.md R60: offsets are 12 bits). -/
abbrev Offset := BitVec 12

end Sys2Proof
end

