-- ==== Sys2Proof/Syntax.lean ====
section
/-! DEFINITION. What the outside can do to the FIU: the bus access (spec/30_encoding.md R94), the instruction it
stands for (one constructor per row of spec/opcode_table.json) and the steps of the other agents
(spec/30_encoding.md R96, R98). -/

namespace Sys2Proof

/-- Direction of a CPU bus access: `read` and `write` of R94, and the instruction fetch that spec/20_memory.md
R75 refuses. -/
inductive AccessDir where
  | read
  | write
  | fetch
  deriving DecidableEq, Repr, Inhabited

/-- One CPU bus access (R94): direction, width in bytes, offset in the window, and the data of a write.
The width is any number: spec/20_memory.md R64 says what happens to each. -/
structure Access where
  dir   : AccessDir
  width : Nat
  off   : Offset
  data  : Word
  deriving DecidableEq, Repr, Inhabited

/-- The widths of an accepted buffer access (spec/20_memory.md R65): 1, 2 or 4 bytes. -/
inductive Width where
  | one
  | two
  | four
  deriving DecidableEq, Repr

/-- The width in bytes. -/
def Width.bytes : Width → Nat
  | .one => 1
  | .two => 2
  | .four => 4

/-- The eleven registers of spec/10_state.md R34. -/
inductive Reg where
  | id
  | config
  | ctrl
  | cmd
  | status
  | result
  | len
  | prevSeq
  | errCount
  | irqStatus
  | irqEnable
  deriving DecidableEq, Repr

/-- The registers whose writes are ignored (spec/44_control.md R256). -/
inductive RoReg where
  | id
  | config
  | status
  | result
  | prevSeq
  | errCount
  deriving DecidableEq, Repr

/-- The instructions: nine command words written to CMD (R91) and eight forms of bus access (R94), in the order
of spec/opcode_table.json. -/
inductive Instr where
  | nop
  | csum
  | crc
  | sealFrame
  | validate
  | consume
  | xferStart
  | sessionReset
  | clearErrs
  /-- 32-bit write of `v` to CTRL. -/
  | wCtrl (v : Word)
  /-- 32-bit write of `v` to IRQ_STATUS. -/
  | wIrqStatus (v : Word)
  /-- 32-bit write of `v` to IRQ_ENABLE. -/
  | wIrqEnable (v : Word)
  /-- 32-bit write of `v` to LEN. -/
  | wLen (v : Word)
  /-- 32-bit write of `v` to a read-only register. -/
  | wRoReg (r : RoReg) (v : Word)
  /-- 32-bit read of a register. -/
  | rReg (r : Reg)
  /-- Read of `n` bytes of the buffer window at window offset `off`. -/
  | rBuf (n : Width) (off : Offset)
  /-- Write of the low `n` bytes of `v` to the buffer window at window offset `off`. -/
  | wBuf (n : Width) (off : Offset) (v : Word)
  deriving DecidableEq, Repr

/-- One input to the FIU, that is, one agent's step (spec/00_scope.md R17; the notation of spec/30_encoding.md
R98): a bus access of the CPU, or an event. `t2 rx` carries the received bytes a line `EV T2 rx=<bytes>` names;
bytes it does not name are free values (spec/42_transfer_engine.md R185). -/
inductive Input where
  | bus (a : Access)
  | t1
  | t2 (rx : List Byte)
  | t3
  | t4
  | t5
  | rst
  deriving DecidableEq, Repr, Inhabited

end Sys2Proof
end

