-- ==== Sys2Proof/Config.lean ====
section
/-! DEFINITION. What one FIU fixes (the parameters of spec/00_scope.md R7 to R12), the reference configuration
(R14), and the free values. -/

namespace Sys2Proof

/-- A byte order (R10): little-endian or big-endian. -/
inductive ByteOrder where
  | le
  | be
  deriving DecidableEq, Repr

/-- The configuration parameters of R7 to R10. PRE_LEN and TRL_LEN are the lengths of the two byte sequences. -/
structure Config where
  /-- N, the frame length in bytes (R7). -/
  n          : Nat
  /-- PREAMBLE (R7). -/
  preamble   : List Byte
  /-- TRAILER (R7). -/
  trailer    : List Byte
  /-- OFF_MODE (R8). -/
  offMode    : Nat
  /-- W_MODE, the width of the mode field in bytes (R8). -/
  wMode      : Nat
  /-- OFF_SEQ (R8). -/
  offSeq     : Nat
  /-- OFF_CSUM (R8). -/
  offCsum    : Nat
  /-- OFF_CRC (R8). -/
  offCrc     : Nat
  /-- MODE_NORMAL (R9). -/
  modeNormal : Nat
  /-- MODE_SAFETY (R9). -/
  modeSafety : Nat
  /-- HDR_ORDER (R10). -/
  hdrOrder   : ByteOrder
  /-- CSUM_ORDER (R10). -/
  csumOrder  : ByteOrder
  deriving DecidableEq, Repr

/-- PRE_LEN (R7). -/
def Config.preLen (c : Config) : Nat := c.preamble.length

/-- TRL_LEN (R7). -/
def Config.trlLen (c : Config) : Nat := c.trailer.length

/-- PAYLOAD_SIZE (R7). -/
def Config.payloadSize : Nat := 160

/-- HEADER_SIZE, from R7's N = PRE_LEN + HEADER_SIZE + PAYLOAD_SIZE + TRL_LEN. -/
def Config.headerSize (c : Config) : Nat := c.n - c.preLen - Config.payloadSize - c.trlLen

/-- The reference configuration REF of R14, "used only by the examples" of spec/95_test_vectors.md.
DESIGN CHOICE (notes/assumptions/2.md): `State.reset` is the machine of this configuration. -/
def Config.ref : Config where
  n          := 182
  preamble   := [0xAA, 0x55]
  trailer    := [0x55, 0xAA]
  offMode    := 2
  wMode      := 1
  offSeq     := 8
  offCsum    := 14
  offCrc     := 16
  modeNormal := 0x00
  modeSafety := 0x01
  hdrOrder   := .le
  csumOrder  := .be

/-- FIU_BASE in units of the 4 KiB window (R11: "a multiple of 0x1000 and is given by the platform").
A parameter without a value. -/
opaque Config.fiuBasePage : Nat

/-- FIU_BASE (R11). -/
def Config.fiuBase : Nat := Config.fiuBasePage * 0x1000

/-- GUARD_INTERVAL (R12): "The model gives it no value: it is a lower bound that no rule reads". -/
opaque Config.guardInterval : Nat

/-- A received byte that no input names (R16 "draw", spec/42_transfer_engine.md R185): a free value. -/
opaque Config.freeRxByte : Nat → Byte

/-- The next step of the environment when no input is listed (R17: "Any enabled agent may take the next step"):
a free value. -/
opaque Config.freeInput : Nat → Input

end Sys2Proof
end

