-- ==== Sys2Proof/WellFormed.lean ====
section
/-! DEFINITION. Which instructions are well formed (the accepted forms of spec/opcode_table.json, as far as they do
not depend on the configuration) and which configurations are admitted (spec/00_scope.md R13). -/

namespace Sys2Proof

/-- First offset of the buffer window (spec/20_memory.md R60). -/
def bufBase : Nat := 0x100

/-- A buffer access's offset stands at or above the window's start and is a multiple of the width
(rows R_BUF and W_BUF: `off=0x100+i, i % n = 0`). -/
def bufferForm (n : Width) (off : Offset) : Bool :=
  decide (bufBase ≤ off.toNat) && off.toNat % n.bytes == 0

/-- The data of a write of `n` bytes has no bit above them (R94: `data`, n bytes). -/
def dataFits (n : Width) (v : Word) : Bool := decide (v.toNat < 2 ^ (8 * n.bytes))

/-- The well-formed instructions. The other rows have no operand that could be ill formed: registers are names,
and a 32-bit register write takes every value. -/
def Instr.wellFormed : Instr → Bool
  | .nop => true
  | .csum => true
  | .crc => true
  | .sealFrame => true
  | .validate => true
  | .consume => true
  | .xferStart => true
  | .sessionReset => true
  | .clearErrs => true
  | .wCtrl _ => true
  | .wIrqStatus _ => true
  | .wIrqEnable _ => true
  | .wLen _ => true
  | .wRoReg _ _ => true
  | .rReg _ => true
  | .rBuf n off => bufferForm n off
  | .wBuf n off v => bufferForm n off && dataFits n v

/-- The four header fields the FIU reads, as (offset, width) (R8). -/
def Config.fields (c : Config) : List (Nat × Nat) :=
  [(c.offMode, c.wMode), (c.offSeq, 4), (c.offCsum, 2), (c.offCrc, 4)]

/-- R13(a) with R7's `PRE_LEN ≥ 1 and TRL_LEN ≥ 1`. -/
def Config.sizesOk (c : Config) : Bool :=
  decide (1 ≤ c.preLen) && decide (1 ≤ c.trlLen) &&
    decide (c.preLen + c.trlLen + Config.payloadSize ≤ c.n) && decide (c.n ≤ 3840)

/-- R13(b): every field lies inside the header region. -/
def Config.fieldsInside (c : Config) : Bool :=
  c.fields.all fun f => decide (c.preLen ≤ f.1) && decide (f.1 + f.2 + c.trlLen + Config.payloadSize ≤ c.n)

/-- R13(d): the field order. -/
def Config.fieldsOrdered (c : Config) : Bool :=
  decide (c.offMode < c.offSeq) && decide (c.offSeq < c.offCsum) && decide (c.offCsum < c.offCrc)

/-- R13(c): the four ranges are pairwise disjoint. -/
def Config.fieldsDisjoint (c : Config) : Bool :=
  decide (c.fields.Pairwise fun f g => f.1 + f.2 ≤ g.1 ∨ g.1 + g.2 ≤ f.1)

/-- R13(e), and R8's W_MODE ∈ {1, 2, 4}. -/
def Config.modesOk (c : Config) : Bool :=
  (c.wMode == 1 || c.wMode == 2 || c.wMode == 4) && c.modeNormal != c.modeSafety &&
    decide (c.modeNormal < 2 ^ (8 * c.wMode)) && decide (c.modeSafety < 2 ^ (8 * c.wMode))

/-- The configurations R13 admits. "A model refuses a configuration that fails any clause." -/
def Config.admitted (c : Config) : Bool :=
  c.sizesOk && c.fieldsInside && c.fieldsDisjoint && c.fieldsOrdered && c.modesOk

end Sys2Proof
end

