-- ==== Sys2Proof/Decode.lean ====
section
/-! DEFINITION. The decoder, total on every bus access and every command word, rejecting by name, and after it the
encoder, both from spec/30_encoding.md R90 to R95, spec/10_state.md R34 and spec/20_memory.md R64. -/

namespace Sys2Proof

/-- Why an access is no instruction. The first two are the illegal command words of R95 (a command error); the
others are the cases of R64 that the access alone decides (a bus error). -/
inductive Reject where
  /-- R95(b): a CMD word with a bit of [31:4] set. -/
  | illegalReservedBits
  /-- R95(a): a CMD word with OP in 0x9 to 0xF. -/
  | illegalOpcode
  /-- R64(a): an offset in 0x02C to 0x0FF. -/
  | reservedOffset
  /-- R64(b): in the register region, but not 32 bits wide at a multiple of 4. -/
  | registerForm
  /-- R64(c): above 0x0FF, with a width that is not 1, 2 or 4. -/
  | bufferWidth
  /-- R64(d): above 0x0FF, and not a multiple of the width. -/
  | misaligned
  /-- R64(g): an instruction fetch. -/
  | instructionFetch
  deriving DecidableEq, Repr

/-- The width of an accepted buffer access (R65). -/
def Width.ofNat? : Nat → Option Width
  | 1 => some .one
  | 2 => some .two
  | 4 => some .four
  | _ => none

/-- The offset of a register (R34). -/
def Reg.offset : Reg → Offset
  | .id => 0x000
  | .config => 0x004
  | .ctrl => 0x008
  | .cmd => 0x00C
  | .status => 0x010
  | .result => 0x014
  | .len => 0x018
  | .prevSeq => 0x01C
  | .errCount => 0x020
  | .irqStatus => 0x024
  | .irqEnable => 0x028

/-- The registers in the order of R34. -/
def Reg.all : List Reg :=
  [.id, .config, .ctrl, .cmd, .status, .result, .len, .prevSeq, .errCount, .irqStatus, .irqEnable]

/-- The register at an offset. -/
def Reg.ofOffset? (off : Offset) : Option Reg := Reg.all.find? fun r => r.offset == off

/-- A read-only register as one of the eleven. -/
def RoReg.toReg : RoReg → Reg
  | .id => .id
  | .config => .config
  | .status => .status
  | .result => .result
  | .prevSeq => .prevSeq
  | .errCount => .errCount

/-- First offset after the register region (R60: 0x000 to 0x02B). -/
def regionEnd : Nat := 0x02C

/-- The decoder of a command word (R92). -/
def decodeCmd (w : Word) : Except Reject Instr :=
  if w.extractLsb' 4 28 ≠ 0 then .error .illegalReservedBits
  else match (w.extractLsb' 0 4).toNat with
    | 0x0 => .ok .nop
    | 0x1 => .ok .csum
    | 0x2 => .ok .crc
    | 0x3 => .ok .sealFrame
    | 0x4 => .ok .validate
    | 0x5 => .ok .consume
    | 0x6 => .ok .xferStart
    | 0x7 => .ok .sessionReset
    | 0x8 => .ok .clearErrs
    | _ => .error .illegalOpcode

/-- A 32-bit write of `v` to a register (spec/44_control.md R252 to R256; a write to CMD is the CMDW form, R94). -/
def decodeRegWrite (r : Reg) (v : Word) : Except Reject Instr :=
  match r with
  | .id => .ok (.wRoReg .id v)
  | .config => .ok (.wRoReg .config v)
  | .ctrl => .ok (.wCtrl v)
  | .cmd => decodeCmd v
  | .status => .ok (.wRoReg .status v)
  | .result => .ok (.wRoReg .result v)
  | .len => .ok (.wLen v)
  | .prevSeq => .ok (.wRoReg .prevSeq v)
  | .errCount => .ok (.wRoReg .errCount v)
  | .irqStatus => .ok (.wIrqStatus v)
  | .irqEnable => .ok (.wIrqEnable v)

/-- The low `n` bytes of the data of a write (R94: `data`, n bytes). -/
def dataBytes (n : Width) (v : Word) : Word := BitVec.ofNat 32 (v.toNat % 2 ^ (8 * n.bytes))

/-- The decoder of a bus access (R94 by the regions of spec/20_memory.md R60). The conditions of R64 that depend on
the configuration or on OWNER, (e), (f) and the end of the window in (a), are checked where the access is performed. -/
def decode (a : Access) : Except Reject Instr :=
  match a.dir with
  | .fetch => .error .instructionFetch
  | .read =>
    if a.off.toNat < regionEnd then
      match Reg.ofOffset? a.off with
      | some r => if a.width = 4 then .ok (.rReg r) else .error .registerForm
      | none => .error .registerForm
    else if a.off.toNat < bufBase then .error .reservedOffset
    else match Width.ofNat? a.width with
      | none => .error .bufferWidth
      | some n => if bufferForm n a.off then .ok (.rBuf n a.off) else .error .misaligned
  | .write =>
    if a.off.toNat < regionEnd then
      match Reg.ofOffset? a.off with
      | some r => if a.width = 4 then decodeRegWrite r a.data else .error .registerForm
      | none => .error .registerForm
    else if a.off.toNat < bufBase then .error .reservedOffset
    else match Width.ofNat? a.width with
      | none => .error .bufferWidth
      | some n => if bufferForm n a.off then .ok (.wBuf n a.off (dataBytes n a.data)) else .error .misaligned

/-! ## The encoder -/

/-- A 32-bit write to a register. -/
def Access.writeReg (r : Reg) (v : Word) : Access := { dir := .write, width := 4, off := r.offset, data := v }

/-- The write of a command word to CMD (R90). -/
def Access.command (w : Word) : Access := Access.writeReg .cmd w

/-- The bus access of an instruction, from the opcode table (R91, R94). A read carries no data. -/
def encode : Instr → Access
  | .nop => Access.command 0x00000000
  | .csum => Access.command 0x00000001
  | .crc => Access.command 0x00000002
  | .sealFrame => Access.command 0x00000003
  | .validate => Access.command 0x00000004
  | .consume => Access.command 0x00000005
  | .xferStart => Access.command 0x00000006
  | .sessionReset => Access.command 0x00000007
  | .clearErrs => Access.command 0x00000008
  | .wCtrl v => Access.writeReg .ctrl v
  | .wIrqStatus v => Access.writeReg .irqStatus v
  | .wIrqEnable v => Access.writeReg .irqEnable v
  | .wLen v => Access.writeReg .len v
  | .wRoReg r v => Access.writeReg r.toReg v
  | .rReg r => { dir := .read, width := 4, off := r.offset, data := 0 }
  | .rBuf n off => { dir := .read, width := n.bytes, off := off, data := 0 }
  | .wBuf n off v => { dir := .write, width := n.bytes, off := off, data := v }

/-- The access with the data bits that carry nothing set to 0: all of a read's or fetch's, and a write's bits
above its width (R94). -/
def Access.canon (a : Access) : Access :=
  match a.dir with
  | .read => { a with data := 0 }
  | .fetch => { a with data := 0 }
  | .write => { a with data := BitVec.ofNat 32 (a.data.toNat % 2 ^ (8 * a.width)) }

/-! ## Accesses as one number

The command form has a bit layout (R90), and decodeTableWord reads it. The bus-access form has none in the spec: its
fields are dir, width, off and data. DESIGN CHOICE (notes/assumptions/7.md): one access is packed with off in
bits 11:0, as the opcode table numbers it, the width in bits 13:12 (0 for 4 bytes, 1 for 1, 2 for 2, 3 for a
width no access accepts), a read in bit 14, a fetch in bit 15 and the data in bits 47:16. -/

/-- The width of a packed access. -/
def unpackWidth (k : Nat) : Nat :=
  match k with
  | 0 => 4
  | 1 => 1
  | 2 => 2
  | _ => 8

/-- The packed code of a width. -/
def packWidth (n : Nat) : Nat :=
  match n with
  | 4 => 0
  | 1 => 1
  | 2 => 2
  | _ => 3

/-- The direction of a packed access. -/
def unpackDir (isRead isFetch : Bool) : AccessDir := if isFetch then .fetch else if isRead then .read else .write

/-- An access from its packed word. -/
def Access.ofWord (w : BitVec 48) : Access where
  dir   := unpackDir (w.getLsbD 14) (w.getLsbD 15)
  width := unpackWidth (w.extractLsb' 12 2).toNat
  off   := w.extractLsb' 0 12
  data  := w.extractLsb' 16 32

/-- The packed word of an access. -/
def Access.toWord (a : Access) : BitVec 48 :=
  a.data ++ BitVec.ofBool (a.dir == .fetch) ++ BitVec.ofBool (a.dir == .read) ++ BitVec.ofNat 2 (packWidth a.width) ++ a.off

/-- The access a word of the opcode table stands for: with 32 bits, the write of that command word to CMD (the CMDW
rows); with any other number of bits, the packed access whose bits above them are 0 (the MMIO rows). -/
def tableAccess (nbits w : Nat) : Access :=
  if nbits = 32 then Access.command (BitVec.ofNat 32 w) else Access.ofWord (BitVec.ofNat 48 (w % 2 ^ nbits))

/-- The instruction the decoder reads from a word of the opcode table. -/
def decodeTableWord (nbits w : Nat) : Option Instr := (decode (tableAccess nbits w)).toOption

/-- The access, at its window offset, of a CPU access to bus address `addr`; none where the address is not in the
FIU's window (spec/00_scope.md R11, spec/10_state.md R34: offsets are from FIU_BASE). -/
def accessAtAddress (dir : AccessDir) (width addr : Nat) (data : Word) : Option Access :=
  if Config.fiuBase ≤ addr ∧ addr < Config.fiuBase + 0x1000 then
    some { dir := dir, width := width, off := BitVec.ofNat 12 (addr - Config.fiuBase), data := data }
  else none

end Sys2Proof
end

