-- ==== Sys2Proof/Machine/State.lean ====
section
/-! DEFINITION. The state of the FIU as plain data (spec/10_state.md R20), its value after reset (R52), and the
reasons a step can stop. -/

namespace Sys2Proof.Machine

/-- Transfer direction (R37): CTRL.DIR 0 is transmit, 1 is receive. -/
inductive Direction where
  | transmit
  | receive
  deriving DecidableEq, Repr

/-- XSTATE (R21). The codes 5 and 6 "are never held" and have no constructor. -/
inductive XState where
  | idle
  | asserted
  | transferring
  | completed
  | guard
  | fatal
  deriving DecidableEq, Repr

/-- The owner of the bundle (R22). -/
inductive Owner where
  | cpu
  | dma
  deriving DecidableEq, Repr

/-- LAST_REASON (R39). The codes 8 to 15 are "never produced" and have no constructor. -/
inductive Reason where
  | none
  | ok
  | struct
  | seq
  | csum
  | unexpCrc
  | crc
  | mode
  deriving DecidableEq, Repr

/-- CMD_ERR (R39). The codes 6 to 15 are "never produced" and have no constructor. -/
inductive CmdErr where
  | none
  | illegal
  | busy
  | fatal
  | badLen
  | badMode
  deriving DecidableEq, Repr

/-- The response of the bus slave to the CPU's last access (R51, spec/00_scope.md R17): none yet, a write
accepted, the value of an accepted read, or the bus error of spec/60_exceptions.md R271. -/
inductive BusResponse where
  | none
  | accepted
  | value (v : Word)
  | busError
  deriving DecidableEq, Repr

/-- Why a step stops with a fault. -/
inductive Fault where
  /-- R25, U2: an unwritten buffer byte was read, by R_BUF, CSUM, CRC, SEAL, VALIDATE, CONSUME or the completion of a
  transmit transfer. Safe: the spec's own model fault. A real buffer would return an unknown byte. -/
  | unwrittenByte
  deriving DecidableEq, Repr

/-- Why a step is refused. -/
inductive Refusal where
  /-- An instruction without a meaning in this model: no arm of exec answers it. Safe. -/
  | notModelled (mnemonic : String)
  /-- spec/00_scope.md R13: "A model refuses a configuration that fails any clause." Raised by step. Safe. -/
  | configNotAdmitted
  deriving DecidableEq, Repr

/-- The frame buffer's written cells, as (index, byte) with rising indexes: byte i of the frame at index i (R25). A
cell that is not listed is unwritten and holds no value. -/
abbrev Memory := List Host.Cell

/-- The canonical form of a memory: indexes strictly rising. (An unlisted cell holds no value, so no listed cell can
equal it.) -/
def Memory.wf : Memory → Bool
  | [] => true
  | [_] => true
  | (i, _) :: (j, b) :: m => decide (i < j) && Memory.wf ((j, b) :: m)

/-- The state: the record of R20 and, after it, the model's own fields (INVENTORY.md, "## State"). -/
structure State where
  /-- BUF. -/
  buf        : Memory
  /-- CTRL.DIR. -/
  dir        : Direction
  xstate     : XState
  owner      : Owner
  /-- CS_N, and the port cs_n: true is deasserted (high). -/
  csN        : Bool
  prevValid  : Bool
  prevSeq    : Word
  errCount   : Word
  lastReason : Reason
  lastGap    : Bool
  lastRetro  : Bool
  lastDup    : Bool
  cmdErr     : CmdErr
  ownErr     : Bool
  result     : Word
  len        : Half
  /-- IRQ_STATUS[1:0]: XFER_DONE is bit 0, FATAL is bit 1. -/
  irqStatus  : BitVec 2
  /-- IRQ_ENABLE[1:0]: XFER_DONE_EN is bit 0, FATAL_EN is bit 1. -/
  irqEnable  : BitVec 2
  /-- The model's own: the configuration parameters. No step writes it (notes/assumptions/2.md). -/
  cfg        : Config
  /-- The model's own: the coming steps of the agents, first one first (notes/assumptions/1.md). -/
  inputs     : List Input
  /-- The model's own: how many free values have been drawn (notes/assumptions/3.md). -/
  draws      : Nat
  /-- The model's own: the response to the CPU's last access (notes/assumptions/4.md). -/
  resp       : BusResponse
  /-- The model's own: the TxFrame events emitted, first one first (notes/assumptions/5.md). -/
  txFrames   : List (List Byte)
  deriving DecidableEq, Repr

/-- The machine of a configuration right after reset (R52, spec/70_reset_and_hazards.md R300), with nothing placed
in the model's own fields. LEN is zext16(N). -/
def State.init (c : Config) : State where
  buf        := []
  dir        := .transmit
  xstate     := .idle
  owner      := .cpu
  csN        := true
  prevValid  := false
  prevSeq    := 0
  errCount   := 0
  lastReason := .none
  lastGap    := false
  lastRetro  := false
  lastDup    := false
  cmdErr     := .none
  ownErr     := false
  result     := 0
  len        := BitVec.ofNat 16 c.n
  irqStatus  := 0
  irqEnable  := 0
  cfg        := c
  inputs     := []
  draws      := 0
  resp       := .none
  txFrames   := []

/-- The machine right after reset, in the reference configuration (DESIGN CHOICE, notes/assumptions/2.md). -/
def State.reset : State := State.init Config.ref

end Sys2Proof.Machine
end

