-- ==== Sys2Proof/Machine/Ops.lean ====
section
/-! DEFINITION. The named operations over the buffer and the registers, and every abnormal outcome of
spec/60_exceptions.md R270 as one shared operation each. -/

namespace Sys2Proof.Machine

/-- What one step answers. -/
abbrev Result := Host.Outcome State Fault Refusal

/-! ## The frame buffer (spec/10_state.md R25) -/

/-- The byte of cell i; none where it is unwritten. -/
def Memory.get : Memory → Nat → Option Byte
  | [], _ => none
  | (j, b) :: m, i => if j = i then some b else Memory.get m i

/-- Write byte b to cell i, keeping the canonical form. -/
def Memory.set : Memory → Nat → Byte → Memory
  | [], i, b => [(i, b)]
  | (j, c) :: m, i, b =>
    if i < j then (i, b) :: (j, c) :: m
    else if i = j then (i, b) :: m
    else (j, c) :: Memory.set m i b

/-- Write the bytes to the cells from i on. -/
def Memory.setBytes : Memory → Nat → List Byte → Memory
  | m, _, [] => m
  | m, i, b :: bs => Memory.setBytes (Memory.set m i b) (i + 1) bs

/-- The n bytes from cell i on; none where one of them is unwritten. -/
def Memory.getBytes (m : Memory) : Nat → Nat → Option (List Byte)
  | _, 0 => some []
  | i, n + 1 =>
    match Memory.get m i, Memory.getBytes m (i + 1) n with
    | some b, some bs => some (b :: bs)
    | _, _ => none

/-- Go on with the n bytes of the buffer from cell i on, or take the model fault of R25 where one is unwritten. -/
def withBytes (s : State) (i n : Nat) (k : List Byte → Result) : Result :=
  match Memory.getBytes s.buf i n with
  | some bs => k bs
  | none => .fault .unwrittenByte

/-! ## Updates of the state -/

/-- The bus slave answers the CPU. -/
def State.reply (s : State) (r : BusResponse) : State := { s with resp := r }

/-- RESULT <- v. -/
def State.setResult (s : State) (v : Word) : State := { s with result := v }

/-- BUF <- m. -/
def State.setBuf (s : State) (m : Memory) : State := { s with buf := m }

/-- Write the tracker's previous sequence and its validity bit. -/
def State.setPrev (s : State) (pv : Bool) (p : Word) : State := { s with prevValid := pv, prevSeq := p }

/-- ERR_COUNT <- v. -/
def State.setErrCount (s : State) (v : Word) : State := { s with errCount := v }

/-- Write the outcome fields LAST_REASON, LAST_GAP, LAST_RETRO and LAST_DUP. -/
def State.setLast (s : State) (r : Reason) (gap retro dup : Bool) : State :=
  { s with lastReason := r, lastGap := gap, lastRetro := retro, lastDup := dup }

/-- Write XSTATE, OWNER and CS_N. -/
def State.setBundle (s : State) (x : XState) (o : Owner) (cs : Bool) : State :=
  { s with xstate := x, owner := o, csN := cs }

/-- XSTATE <- x. -/
def State.setXState (s : State) (x : XState) : State := { s with xstate := x }

/-- Set pending bits of IRQ_STATUS. -/
def State.raiseIrq (s : State) (bits : BitVec 2) : State := { s with irqStatus := s.irqStatus ||| bits }

/-! ## The abnormal outcomes (spec/60_exceptions.md R270) -/

/-- The offset is in the buffer window of this configuration (spec/20_memory.md R60). -/
def inWindow (c : Config) (off : Offset) : Bool :=
  decide (bufBase ≤ off.toNat) && decide (off.toNat < bufBase + c.n)

/-- `raise BusError` for an access at `off` (R271): the response is the bus error, and OWN_ERR is set in case (f) of
spec/20_memory.md R64, "even when another case also applies". Nothing else changes. -/
def State.busError (s : State) (off : Offset) : State :=
  { s with resp := .busError, ownErr := s.ownErr || (inWindow s.cfg off && s.owner == .dma) }

/-- `cmd_error(code)` (R272): CMD_ERR takes the code, and the write's bus access succeeds. -/
def State.cmdError (s : State) (e : CmdErr) : State := { s with cmdErr := e, resp := .accepted }

/-- Fatal entry (R275, spec/42_transfer_engine.md R186): "Entry saves nothing and needs no vector". In the receive
direction every cell becomes unwritten. OWNER, CS_N and all else stay. -/
def State.enterFatal (s : State) : State :=
  let t := (s.setXState .fatal).raiseIrq 0b10
  if s.dir = .receive then t.setBuf [] else t

/-- Reset (spec/70_reset_and_hazards.md R300), the only way out of FATAL: every element of R52 takes its reset
value. The model's own fields stay: the configuration, the coming inputs, the draws, the response and the frames
already emitted. -/
def State.rst (s : State) : State :=
  { State.init s.cfg with inputs := s.inputs, draws := s.draws, resp := s.resp, txFrames := s.txFrames }

/-! ## The command gate (R273) -/

/-- The second and third check of the gate, for a command that is not NOP: FATAL, then BUSY for a command that needs
the bundle (spec/30_encoding.md R91). The first, ILLEGAL, is the decoder's. -/
def gateError (needsBundle : Bool) (s : State) : Option CmdErr :=
  if s.xstate = .fatal then some .fatal
  else if needsBundle && s.owner == .dma then some .busy
  else none

/-- Run a command's body behind the gate. -/
def gate (needsBundle : Bool) (s : State) (k : State → Result) : Result :=
  match gateError needsBundle s with
  | some e => .next (s.cmdError e)
  | none => k s

/-- A command ends without an error, and the CMD write's bus access succeeds. -/
def complete (s : State) : Result := .next (s.reply .accepted)

/-! ## Performing an access that is no instruction, and choosing the next step -/

/-- What an access that the decoder rejects does: an illegal command word ends with command error ILLEGAL, "checked
before every other condition" (spec/30_encoding.md R92); every other rejected access with a bus error. -/
def rejectAccess (r : Reject) (a : Access) (s : State) : State :=
  match r with
  | .illegalReservedBits => s.cmdError .illegal
  | .illegalOpcode => s.cmdError .illegal
  | .reservedOffset => s.busError a.off
  | .registerForm => s.busError a.off
  | .bufferWidth => s.busError a.off
  | .misaligned => s.busError a.off
  | .instructionFetch => s.busError a.off

/-- The next step's input and the state it is taken in: the first listed input or, where none is listed, a free
value (spec/00_scope.md R17: "Any enabled agent may take the next step"). -/
def nextInput (s : State) : Input × State :=
  match s.inputs with
  | [] => (Config.freeInput s.draws, { s with draws := s.draws + 1 })
  | x :: rest => (x, { s with inputs := rest })

/-- Place an instruction, as the opcode table's word, where step takes its next input. -/
def placeWord (s : State) (nbits w : Nat) : State :=
  { s with inputs := .bus (tableAccess nbits w) :: s.inputs }

end Sys2Proof.Machine
end

