-- ==== Sys2Proof/Machine/Operands.lean ====
section
/-! DEFINITION. Operand forms: numbers made of bytes, header fields of a frame image (spec/40_integrity_functions.md
R127, R128), and the buffer access of spec/20_memory.md R62 and R64. -/

namespace Sys2Proof.Machine

/-- The little-endian value of bytes: Σ b_k · 2^(8k) (spec/20_memory.md R62). -/
def leNat : List Byte → Nat
  | [] => 0
  | b :: bs => b.toNat + 256 * leNat bs

/-- The w low bytes of v, least significant first. -/
def leBytes : Nat → Nat → List Byte
  | 0, _ => []
  | w + 1, v => BitVec.ofNat 8 v :: leBytes w (v / 256)

/-- The value of a byte sequence in a byte order. -/
def orderedNat (o : ByteOrder) (bs : List Byte) : Nat :=
  match o with
  | .le => leNat bs
  | .be => leNat bs.reverse

/-- The w-byte encoding of v in a byte order. -/
def orderedBytes (o : ByteOrder) (w v : Nat) : List Byte :=
  match o with
  | .le => leBytes w v
  | .be => (leBytes w v).reverse

/-- F[off:off+w). -/
def slice (F : List Byte) (off w : Nat) : List Byte := (F.drop off).take w

/-- F with its bytes from off on replaced by bs, as far as F reaches. -/
def overlay : List Byte → Nat → List Byte → List Byte
  | [], _, _ => []
  | F, 0, [] => F
  | _ :: F, 0, b :: bs => b :: overlay F 0 bs
  | x :: F, off + 1, bs => x :: overlay F off bs

/-- GetU(F, off, w) (R127). -/
def getU (c : Config) (F : List Byte) (off w : Nat) : Nat := orderedNat c.hdrOrder (slice F off w)

/-- PutU(F, off, w, v) (R128). -/
def putU (c : Config) (F : List Byte) (off w v : Nat) : List Byte := overlay F off (orderedBytes c.hdrOrder w v)

/-- Store the header field of w bytes at off in the buffer, in HDR_ORDER (the BUF <- PutU(...) of R153). -/
def storeField (c : Config) (m : Memory) (off w v : Nat) : Memory :=
  Memory.setBytes m off (orderedBytes c.hdrOrder w v)

/-- The buffer index of a window offset (spec/20_memory.md R60: offset 0x100+i is BUF[i]). -/
def bufIndex (off : Offset) : Nat := off.toNat - bufBase

/-- spec/20_memory.md R64 accepts a buffer access of width n at this offset: in the window (a), aligned (d), not
past the end (e), and the CPU owns the bundle (f). -/
def bufferAccessOk (s : State) (n : Width) (off : Offset) : Bool :=
  inWindow s.cfg off && off.toNat % n.bytes == 0 && decide (bufIndex off + n.bytes ≤ s.cfg.n) && s.owner == .cpu

/-- Perform a buffer access, given the buffer index, or refuse it with a bus error (R64). -/
def bufferAccess (s : State) (n : Width) (off : Offset) (k : Nat → Result) : Result :=
  if bufferAccessOk s n off then k (bufIndex off) else .next (s.busError off)

end Sys2Proof.Machine
end

