-- ==== Sys2Proof/Machine/Functions.lean ====
section
/-! DEFINITION. The pure integrity functions of spec/40_integrity_functions.md: Checksum, Crc32, Zeroed, ModeOf,
StructOK, Validate. -/

namespace Sys2Proof.Machine

/-! ## Internet checksum (R121) -/

/-- The 16-bit word that two successive bytes join into, in CSUM_ORDER. -/
def csumWord (o : ByteOrder) (x y : Byte) : Word :=
  match o with
  | .be => (x ++ y).setWidth 32
  | .le => (y ++ x).setWidth 32

/-- The unfolded 32-bit sum. A trailing odd byte is a standalone term. -/
def csumAdd (o : ByteOrder) : Word → List Byte → Word
  | acc, [] => acc
  | acc, [x] => acc + x.setWidth 32
  | acc, x :: y :: bs => csumAdd o (acc + csumWord o x y) bs

/-- The fold loop of R121, at most `fuel` rounds. -/
def csumFold : Nat → Word → Word
  | 0, sum => sum
  | fuel + 1, sum =>
    if sum >>> 16 = 0#32 then sum
    else csumFold fuel ((sum &&& 0xFFFF#32) + (sum >>> 16))

/-- Checksum(b) (R121). Two rounds of the fold are enough for every 32-bit sum (`csumFold_high` in
Sys2Proof/Laws/Functions.lean; R122). -/
def checksum (o : ByteOrder) (b : List Byte) : Half := ~~~ ((csumFold 2 (csumAdd o 0 b)).setWidth 16)

/-! ## CRC-32/AUTOSAR (R124) -/

/-- One of the eight rounds for a byte. -/
def crcBit (c : Word) : Word := if c.getLsbD 0 then (c >>> 1) ^^^ 0xC8DF352F#32 else c >>> 1

/-- k rounds. -/
def crcBits : Nat → Word → Word
  | 0, c => c
  | k + 1, c => crcBits k (crcBit c)

/-- Consume one byte. -/
def crcByte (c : Word) (b : Byte) : Word := crcBits 8 (c ^^^ b.setWidth 32)

/-- The register after the bytes, before the final xor. -/
def crcRegister (bs : List Byte) : Word := bs.foldl crcByte 0xFFFFFFFF#32

/-- Crc32(b). -/
def crc32 (bs : List Byte) : Word := crcRegister bs ^^^ 0xFFFFFFFF#32

/-! ## The frame image (R18, R129 to R131) -/

/-- SEQF(F) (R18). -/
def seqF (c : Config) (F : List Byte) : Word := BitVec.ofNat 32 (getU c F c.offSeq 4)

/-- CSUMF(F) (R18). -/
def csumF (c : Config) (F : List Byte) : Half := BitVec.ofNat 16 (getU c F c.offCsum 2)

/-- CRCF(F) (R18). -/
def crcF (c : Config) (F : List Byte) : Word := BitVec.ofNat 32 (getU c F c.offCrc 4)

/-- MODEF(F) (R18). -/
def modeF (c : Config) (F : List Byte) : Nat := getU c F c.offMode c.wMode

/-- Zeroed(F) (R129). -/
def zeroed (c : Config) (F : List Byte) : List Byte := putU c (putU c F c.offCsum 2 0) c.offCrc 4 0

/-- What the mode field decodes to (R130). -/
inductive FrameMode where
  | normal
  | safety
  | unknown
  deriving DecidableEq, Repr

/-- ModeOf(F) (R130). -/
def modeOf (c : Config) (F : List Byte) : FrameMode :=
  if modeF c F = c.modeNormal then .normal
  else if modeF c F = c.modeSafety then .safety
  else .unknown

/-- PRE(F) (R18). -/
def preF (c : Config) (F : List Byte) : List Byte := slice F 0 c.preLen

/-- TRL(F) (R18). -/
def trlF (c : Config) (F : List Byte) : List Byte := slice F (c.n - c.trlLen) c.trlLen

/-- StructOK(F) (R131). -/
def structOk (c : Config) (F : List Byte) : Bool := preF c F == c.preamble && trlF c F == c.trailer

/-! ## Validation (R132) -/

/-- Step 2's rejection: a previous sequence is held and seq is not greater. -/
def staleSeq (pv : Bool) (prev seq : Word) : Bool := pv && !decide (prev.toNat < seq.toNat)

/-- Step 4, the mode's CRC rule, with step 5. -/
def modeReason (c : Config) (F : List Byte) : Reason :=
  match modeOf c F with
  | .normal => if crcF c F = 0 then .ok else .unexpCrc
  | .safety => if crcF c F = crc32 (zeroed c F) then .ok else .crc
  | .unknown => .mode

/-- Steps 3 to 5. -/
def integrityReason (c : Config) (F : List Byte) : Reason :=
  if checksum c.csumOrder (zeroed c F) = csumF c F then modeReason c F else .csum

/-- Validate(F, pv, prev) (R132). -/
def validate (c : Config) (F : List Byte) (pv : Bool) (prev : Word) : Reason × Word :=
  if !structOk c F then (.struct, 0)
  else if staleSeq pv prev (seqF c F) then (.seq, seqF c F)
  else (integrityReason c F, seqF c F)

/-- Validate applied to the buffer, reading only the bytes the steps of R132 reach (R154: "Any byte Validate reads
that is unwritten causes a model fault"): none where one of them is unwritten. -/
def validateBuf (s : State) : Option (Reason × Word) :=
  match Memory.getBytes s.buf 0 s.cfg.preLen, Memory.getBytes s.buf (s.cfg.n - s.cfg.trlLen) s.cfg.trlLen with
  | some p, some t =>
    if p ≠ s.cfg.preamble ∨ t ≠ s.cfg.trailer then some (.struct, 0)
    else match Memory.getBytes s.buf s.cfg.offSeq 4 with
      | none => none
      | some q =>
        let seq := BitVec.ofNat 32 (orderedNat s.cfg.hdrOrder q)
        if staleSeq s.prevValid s.prevSeq seq then some (.seq, seq)
        else match Memory.getBytes s.buf 0 s.cfg.n with
          | none => none
          | some F => some (integrityReason s.cfg F, seq)
  | _, _ => none

/-- Go on with the outcome of Validate on the buffer, or take the model fault of spec/10_state.md R25. -/
def withOutcome (s : State) (k : Reason → Word → Result) : Result :=
  match validateBuf s with
  | some (r, seq) => k r seq
  | none => .fault .unwrittenByte

end Sys2Proof.Machine
end

