-- ==== Sys2Proof/Machine/Flags.lean ====
section
/-! DEFINITION. Flag computations: the continuity flags (spec/40_integrity_functions.md R133), the saturating tally
(spec/43_sequence_tracker.md R222), the register images (spec/10_state.md R35 to R45, spec/44_control.md R257) and
the irq output (spec/60_exceptions.md R278). -/

namespace Sys2Proof.Machine

/-- gap of Classify (R133). -/
def gapFlag (r : Reason) (seq : Word) (pv : Bool) (prev : Word) : Bool :=
  r == .ok && pv && decide (1 < (seq - prev).toNat)

/-- retro of Classify (R133). -/
def retroFlag (r : Reason) (seq prev : Word) : Bool := r == .seq && decide (seq.toNat < prev.toNat)

/-- dup of Classify (R133). -/
def dupFlag (r : Reason) (seq prev : Word) : Bool := r == .seq && seq == prev

/-- Write what VALIDATE and CONSUME both write (R154, R221): LAST_REASON, the flags of Classify, and RESULT. -/
def State.setOutcome (s : State) (r : Reason) (seq : Word) : State :=
  (s.setLast r (gapFlag r seq s.prevValid s.prevSeq) (retroFlag r seq s.prevSeq) (dupFlag r seq s.prevSeq)).setResult seq

/-- SatInc (R222). -/
def satInc (x : Word) : Word := if x = 0xFFFFFFFF then 0xFFFFFFFF else x + 1

/-- DIR's code (spec/10_state.md R37). -/
def Direction.code : Direction → BitVec 1
  | .transmit => 0
  | .receive => 1

/-- The direction a bit of CTRL selects (R37). -/
def Direction.ofBit (b : Bool) : Direction := if b then .receive else .transmit

/-- XSTATE's code (spec/10_state.md R21). -/
def XState.code : XState → BitVec 3
  | .idle => 0
  | .asserted => 1
  | .transferring => 2
  | .completed => 3
  | .guard => 4
  | .fatal => 7

/-- OWNER's code (spec/10_state.md R22). -/
def Owner.code : Owner → BitVec 1
  | .cpu => 0
  | .dma => 1

/-- LAST_REASON's code (spec/10_state.md R39). -/
def Reason.code : Reason → BitVec 4
  | .none => 0
  | .ok => 1
  | .struct => 2
  | .seq => 3
  | .csum => 4
  | .unexpCrc => 5
  | .crc => 6
  | .mode => 7

/-- CMD_ERR's code (spec/10_state.md R39). -/
def CmdErr.code : CmdErr → BitVec 4
  | .none => 0
  | .illegal => 1
  | .busy => 2
  | .fatal => 3
  | .badLen => 4
  | .badMode => 5

/-- The STATUS word (R257). -/
def statusWord (s : State) : Word :=
  (s.cmdErr.code ++ (0 : BitVec 1) ++ BitVec.ofBool s.lastDup ++ BitVec.ofBool s.lastRetro ++ BitVec.ofBool s.lastGap ++
    s.lastReason.code ++ BitVec.ofBool s.ownErr ++ BitVec.ofBool s.prevValid ++ BitVec.ofBool (s.xstate == .fatal) ++
    BitVec.ofBool s.csN ++ s.owner.code ++ s.xstate.code).setWidth 32

/-- The CONFIG word (spec/10_state.md R36). -/
def configWord (c : Config) : Word :=
  (BitVec.ofBool (c.hdrOrder == .be) ++ BitVec.ofBool (c.csumOrder == .le) ++ BitVec.ofNat 16 c.n).setWidth 32

/-- The value a register reads as (spec/10_state.md R35 to R45). -/
def readReg (s : State) : Reg → Word
  | .id => 0x46495501
  | .config => configWord s.cfg
  | .ctrl => s.dir.code.setWidth 32
  | .cmd => 0
  | .status => statusWord s
  | .result => s.result
  | .len => s.len.setWidth 32
  | .prevSeq => s.prevSeq
  | .errCount => s.errCount
  | .irqStatus => s.irqStatus.setWidth 32
  | .irqEnable => s.irqEnable.setWidth 32

/-- The irq output (R278). -/
def State.irq (s : State) : Bool :=
  (s.irqStatus.getLsbD 0 && s.irqEnable.getLsbD 0) || (s.irqStatus.getLsbD 1 && s.irqEnable.getLsbD 1)

end Sys2Proof.Machine
end

