-- ==== Sys2Proof/Machine/Control.lean ====
section
/-! DEFINITION. The control commands NOP and CLEAR_ERRS, the register writes and reads, and the buffer accesses
(spec/44_control.md). -/

namespace Sys2Proof.Machine

/-- NOP (R250). The one command the FATAL check of the gate spares (spec/60_exceptions.md R273). -/
def execNop (s : State) : Result := complete s

/-- CLEAR_ERRS (R251). -/
def execClearErrs (s : State) : Result :=
  gate false s fun s => complete { s with errCount := 0, cmdErr := .none, ownErr := false }

/-- W_CTRL (R252): DIR is written only in IDLE; otherwise CMD_ERR takes BUSY. The access succeeds in every case. -/
def execWCtrl (v : Word) (s : State) : Result :=
  if s.xstate = .idle then complete { s with dir := Direction.ofBit (v.getLsbD 0) }
  else .next (s.cmdError .busy)

/-- W_IRQ_STATUS (R253): write one to clear. -/
def execWIrqStatus (v : Word) (s : State) : Result :=
  complete { s with irqStatus := s.irqStatus &&& ~~~ (v.setWidth 2) }

/-- W_IRQ_ENABLE (R254). -/
def execWIrqEnable (v : Word) (s : State) : Result := complete { s with irqEnable := v.setWidth 2 }

/-- W_LEN (R255). -/
def execWLen (v : Word) (s : State) : Result := complete { s with len := v.setWidth 16 }

/-- W_RO_REG (R256): ignored; the access succeeds. -/
def execWRoReg (_r : RoReg) (_v : Word) (s : State) : Result := complete s

/-- R_REG (R257). -/
def execRReg (r : Reg) (s : State) : Result := .next (s.reply (.value (readReg s r)))

/-- R_BUF (R258). -/
def execRBuf (n : Width) (off : Offset) (s : State) : Result :=
  bufferAccess s n off fun i =>
    withBytes s i n.bytes fun bs => .next (s.reply (.value (BitVec.ofNat 32 (leNat bs))))

/-- W_BUF (R259). -/
def execWBuf (n : Width) (off : Offset) (v : Word) (s : State) : Result :=
  bufferAccess s n off fun i => complete (s.setBuf (Memory.setBytes s.buf i (leBytes n.bytes v.toNat)))

end Sys2Proof.Machine
end

