-- ==== Sys2Proof/Machine/Integrity.lean ====
section
/-! DEFINITION. The integrity commands CSUM, CRC, SEAL and VALIDATE (spec/41_integrity_commands.md). -/

namespace Sys2Proof.Machine

/-- The length check of CSUM and CRC (R151, R152), then RESULT <- f(BUF[0:LEN)). -/
def lengthCommand (f : List Byte → Word) (s : State) : Result :=
  if s.len.toNat = 0 ∨ s.cfg.n < s.len.toNat then .next (s.cmdError .badLen)
  else withBytes s 0 s.len.toNat fun bs => complete (s.setResult (f bs))

/-- CSUM (R151). -/
def execCsum (s : State) : Result :=
  gate true s fun s => lengthCommand (fun bs => (checksum s.cfg.csumOrder bs).setWidth 32) s

/-- CRC (R152). -/
def execCrc (s : State) : Result := gate true s fun s => lengthCommand crc32 s

/-- The CRC value SEAL stores (R153): the CRC of the zeroed image in Safety mode, 0 in Normal mode. -/
def sealCrc (c : Config) (F : List Byte) : Word :=
  match modeOf c F with
  | .normal => 0
  | .safety => crc32 (zeroed c F)
  | .unknown => 0

/-- The checksum SEAL stores (R153). -/
def sealCsum (c : Config) (F : List Byte) : Half := checksum c.csumOrder (zeroed c F)

/-- The buffer after SEAL of the image F (R153): the two fields stored, in HDR_ORDER. -/
def sealBuf (c : Config) (m : Memory) (F : List Byte) : Memory :=
  storeField c (storeField c m c.offCsum 2 (sealCsum c F).toNat) c.offCrc 4 (sealCrc c F).toNat

/-- SEAL (R153). It reads the whole buffer: an unwritten byte is a model fault, whatever the mode. -/
def execSeal (s : State) : Result :=
  gate true s fun s => withBytes s 0 s.cfg.n fun F =>
    if modeOf s.cfg F = .unknown then .next (s.cmdError .badMode)
    else complete ((s.setBuf (sealBuf s.cfg s.buf F)).setResult ((sealCsum s.cfg F).setWidth 32))

/-- VALIDATE (R154). -/
def execValidate (s : State) : Result :=
  gate true s fun s => withOutcome s fun r seq => complete (s.setOutcome r seq)

end Sys2Proof.Machine
end

