-- ==== Sys2Proof/Machine/Tracker.lean ====
section
/-! DEFINITION. The sequence tracker's commands CONSUME and SESSION_RESET (spec/43_sequence_tracker.md). -/

namespace Sys2Proof.Machine

/-- What CONSUME does to the tracker on an outcome (R221): an accepted frame moves the previous sequence and is
tallied when there is a gap; a retrograde frame is tallied and moves it; every other rejection is tallied only. -/
def State.track (s : State) (r : Reason) (seq : Word) : State :=
  if r = .ok then
    (if gapFlag r seq s.prevValid s.prevSeq then s.setErrCount (satInc s.errCount) else s).setPrev true seq
  else if retroFlag r seq s.prevSeq then
    (s.setErrCount (satInc s.errCount)).setPrev s.prevValid seq
  else s.setErrCount (satInc s.errCount)

/-- CONSUME (R221): the outcome fields and RESULT, then the tracker. -/
def execConsume (s : State) : Result :=
  gate true s fun s => withOutcome s fun r seq => complete ((s.setOutcome r seq).track r seq)

/-- SESSION_RESET (R224). -/
def execSessionReset (s : State) : Result := gate false s fun s => complete (s.setPrev false 0)

end Sys2Proof.Machine
end

