-- ==== Sys2Proof/Machine/Transfer.lean ====
section
/-! DEFINITION. The transfer engine: XFER_START and the steps T1 to T5 of the FIU's agents
(spec/42_transfer_engine.md). A step that XSTATE does not enable changes nothing (R181: "no other transition exists";
notes/assumptions/6.md). -/

namespace Sys2Proof.Machine

/-- XFER_START (R182): take the bundle. -/
def execXferStart (s : State) : Result := gate true s fun s => complete (s.setBundle .asserted .dma false)

/-- T1 (R183, SEQ). -/
def stepT1 (s : State) : Result := if s.xstate = .asserted then .next (s.setXState .transferring) else .next s

/-- Byte i of a received frame: the one the input names, else a free value (R185). -/
def rxByte (rx : List Byte) (base i : Nat) : Byte := rx.getD i (Config.freeRxByte (base + i))

/-- The n received bytes (R185: "draw d : N bytes"). -/
def rxFrame (rx : List Byte) (base n : Nat) : List Byte := (List.range n).map (rxByte rx base)

/-- T2 in the transmit direction (R184): emit the frame, byte 0 first. -/
def stepT2Transmit (s : State) : Result :=
  withBytes s 0 s.cfg.n fun F => .next { s.setXState .completed with txFrames := s.txFrames ++ [F] }

/-- T2 in the receive direction (R185): every cell of BUF takes a received byte. -/
def stepT2Receive (rx : List Byte) (s : State) : Result :=
  .next { (s.setBuf (Memory.setBytes [] 0 (rxFrame rx s.draws s.cfg.n))).setXState .completed with
          draws := s.draws + s.cfg.n }

/-- T2 (LINK, xfer_done): the transfer completes. -/
def stepT2 (rx : List Byte) (s : State) : Result :=
  if s.xstate = .transferring then
    match s.dir with
    | .transmit => stepT2Transmit s
    | .receive => stepT2Receive rx s
  else .next s

/-- T3 (R186, LINK, xfer_err): the transfer fails, fail-stop entry. -/
def stepT3 (s : State) : Result := if s.xstate = .transferring then .next s.enterFatal else .next s

/-- T4 (R187, SEQ): begin the guard interval. -/
def stepT4 (s : State) : Result := if s.xstate = .completed then .next (s.setXState .guard) else .next s

/-- T5 (R188, TIMER, guard_elapsed): release chip-select and give the bundle back, in one step. -/
def stepT5 (s : State) : Result :=
  if s.xstate = .guard then .next ((s.setBundle .idle .cpu true).raiseIrq 0b01) else .next s

/-- RST (spec/70_reset_and_hazards.md R300). -/
def stepRst (s : State) : Result := .next s.rst

end Sys2Proof.Machine
end

