-- ==== Sys2Proof/Machine/Dispatch.lean ====
section
/-! DEFINITION. exec: one arm per row of spec/opcode_table.json, each one call of that instruction's meaning. -/

namespace Sys2Proof.Machine

def exec (i : Instr) (s : State) : Host.Outcome State Fault Refusal :=
  match i with
  | .nop => Sys2Proof.Machine.execNop s
  | .csum => Sys2Proof.Machine.execCsum s
  | .crc => Sys2Proof.Machine.execCrc s
  | .sealFrame => Sys2Proof.Machine.execSeal s
  | .validate => Sys2Proof.Machine.execValidate s
  | .consume => Sys2Proof.Machine.execConsume s
  | .xferStart => Sys2Proof.Machine.execXferStart s
  | .sessionReset => Sys2Proof.Machine.execSessionReset s
  | .clearErrs => Sys2Proof.Machine.execClearErrs s
  | .wCtrl v => Sys2Proof.Machine.execWCtrl v s
  | .wIrqStatus v => Sys2Proof.Machine.execWIrqStatus v s
  | .wIrqEnable v => Sys2Proof.Machine.execWIrqEnable v s
  | .wLen v => Sys2Proof.Machine.execWLen v s
  | .wRoReg r v => Sys2Proof.Machine.execWRoReg r v s
  | .rReg r => Sys2Proof.Machine.execRReg r s
  | .rBuf n off => Sys2Proof.Machine.execRBuf n off s
  | .wBuf n off v => Sys2Proof.Machine.execWBuf n off v s

end Sys2Proof.Machine
end

