-- ==== Sys2Proof/Machine/Step.lean ====
section
/-! DEFINITION. One step of one agent (spec/00_scope.md R17): the CPU's bus access, decoded and performed, or an
event of another agent. -/

namespace Sys2Proof.Machine

/-- The CPU's step: decode the access and perform it. -/
def performAccess (a : Access) (s : State) : Result :=
  match decode a with
  | .ok i => exec i s
  | .error r => .next (rejectAccess r a s)

/-- The step an input stands for. -/
def perform (x : Input) (s : State) : Result :=
  match x with
  | .bus a => performAccess a s
  | .t1 => stepT1 s
  | .t2 rx => stepT2 rx s
  | .t3 => stepT3 s
  | .t4 => stepT4 s
  | .t5 => stepT5 s
  | .rst => stepRst s

/-- One step. A configuration that R13 does not admit is refused. -/
def step (s : State) : Host.Outcome State Fault Refusal :=
  if s.cfg.admitted then perform (nextInput s).1 (nextInput s).2 else .refused .configNotAdmitted

/-- The state whose next step runs the instruction of the opcode table's word (notes/assumptions/7.md): its bus
access is the first of the coming inputs. -/
def State.withFetchWord (s : State) (nbits w : Nat) : State := placeWord s nbits w

end Sys2Proof.Machine
end

