-- ==== Sys2Proof/Safety.lean ====
section
/-! DEFINITION. The terms of the claims: the invariant of spec/10_state.md R24, the refused accesses of
spec/20_memory.md R64, the commands' classes (spec/30_encoding.md R91) and the transitions of
spec/42_transfer_engine.md R181, written from the rules and not from the machine's own checks. -/

namespace Sys2Proof.Machine

/-- The invariant: R24 (a), (b) and (d), with the buffer's canonical form and extent and the admitted configuration.
(R24 (c) and (e) hold by the types XState, Reason and CmdErr.) -/
structure Inv (s : State) : Prop where
  cfgAdmitted : s.cfg.admitted = true
  bufWf       : Memory.wf s.buf = true
  bufInside   : ∀ i b, Memory.get s.buf i = some b → i < s.cfg.n
  ownerIdle   : s.owner = .cpu ↔ s.xstate = .idle
  csIdle      : s.csN = true ↔ s.xstate = .idle
  prevZero    : s.prevValid = false → s.prevSeq = 0

/-- Cells i to i+n-1 of the buffer hold the bytes `bs`. -/
def Holds (s : State) (i n : Nat) (bs : List Byte) : Prop :=
  bs.length = n ∧ ∀ k, k < n → Memory.get s.buf (i + k) = bs[k]?

/-- Some cell of i to i+n-1 is unwritten. -/
def HasUnwritten (s : State) (i n : Nat) : Prop := ∃ k, k < n ∧ Memory.get s.buf (i + k) = none

/-- R60: the offset lies in the buffer window. -/
def InBufferWindow (c : Config) (off : Offset) : Prop := 0x100 ≤ off.toNat ∧ off.toNat < 0x100 + c.n

/-- R64: the accesses that are refused with a bus error, case by case. -/
def Refused (s : State) (a : Access) : Prop :=
  -- (a) a reserved region
  ((0x02C ≤ a.off.toNat ∧ a.off.toNat < 0x100) ∨ 0x100 + s.cfg.n ≤ a.off.toNat) ∨
  -- (b) the register region, and not a 32-bit access at a multiple of 4
  (a.off.toNat < 0x02C ∧ ¬ (a.width = 4 ∧ a.off.toNat % 4 = 0)) ∨
  -- (c) the buffer window, with a width other than 1, 2 and 4
  (InBufferWindow s.cfg a.off ∧ ¬ (a.width = 1 ∨ a.width = 2 ∨ a.width = 4)) ∨
  -- (d) the buffer window, misaligned
  (InBufferWindow s.cfg a.off ∧ a.off.toNat % a.width ≠ 0) ∨
  -- (e) the buffer window, past BUF[N-1]
  (InBufferWindow s.cfg a.off ∧ s.cfg.n < (a.off.toNat - 0x100) + a.width) ∨
  -- (f) the buffer window while the DMA owns the bundle
  (InBufferWindow s.cfg a.off ∧ s.owner = .dma) ∨
  -- (g) an instruction fetch
  a.dir = .fetch

/-- R91's column "needs bundle": yes. -/
def bundleCommands : List Instr := [.csum, .crc, .sealFrame, .validate, .consume, .xferStart]

/-- The commands that fail in FATAL (spec/60_exceptions.md R273): all but NOP. -/
def fatalCommands : List Instr := bundleCommands ++ [.sessionReset, .clearErrs]

/-- The instruction ends with this command error, and with nothing else changed (spec/60_exceptions.md R272). -/
def FailsWith (i : Instr) (s : State) (e : CmdErr) : Prop :=
  exec i s = .next { s with cmdErr := e, resp := .accepted }

/-- A command may run: no FATAL, and the CPU owns the bundle (the gate of spec/60_exceptions.md R273). -/
def GateOpen (s : State) : Prop := s.xstate ≠ .fatal ∧ s.owner = .cpu

/-- The input of a step ends with this command error (spec/60_exceptions.md R272, R273): an illegal command word, a
command that the gate refuses, the own checks of CSUM, CRC and SEAL, or a write to CTRL outside IDLE
(spec/44_control.md R252). -/
inductive CommandErrorOf (s : State) : Input → CmdErr → Prop
  /-- ILLEGAL: a word that is none of the nine commands. -/
  | illegal (w : Word) (hw : 9 ≤ w.toNat) : CommandErrorOf s (.bus (Access.command w)) .illegal
  /-- FATAL: every command but NOP (opcode 0). -/
  | fatal (w : Word) (hw : 1 ≤ w.toNat ∧ w.toNat ≤ 8) (hx : s.xstate = .fatal) :
      CommandErrorOf s (.bus (Access.command w)) .fatal
  /-- BUSY: the commands that need the bundle (opcodes 1 to 6). -/
  | busy (w : Word) (hw : 1 ≤ w.toNat ∧ w.toNat ≤ 6) (hx : s.xstate ≠ .fatal) (ho : s.owner = .dma) :
      CommandErrorOf s (.bus (Access.command w)) .busy
  /-- BAD_LEN: CSUM and CRC. -/
  | badLen (w : Word) (hw : w = 1 ∨ w = 2) (hg : GateOpen s) (hl : s.len.toNat = 0 ∨ s.cfg.n < s.len.toNat) :
      CommandErrorOf s (.bus (Access.command w)) .badLen
  /-- BAD_MODE: SEAL of a written buffer. -/
  | badMode (F : List Byte) (hg : GateOpen s) (hF : Holds s 0 s.cfg.n F) (hm : modeOf s.cfg F = .unknown) :
      CommandErrorOf s (.bus (Access.command 3)) .badMode
  /-- BUSY: a write to CTRL outside IDLE. -/
  | ctrl (v : Word) (hx : s.xstate ≠ .idle) : CommandErrorOf s (.bus (Access.writeReg .ctrl v)) .busy

/-- A frame buffer access of width n at buffer index i that R64 accepts (R258, R259: OWNER = 0, i is a multiple of n,
and i + n ≤ N). -/
def BufferAccepted (s : State) (n : Width) (i : Nat) : Prop :=
  s.owner = .cpu ∧ i % n.bytes = 0 ∧ i + n.bytes ≤ s.cfg.n

/-- The access is the write of the word of XFER_START to CMD. -/
def IsXferStart (x : Input) : Prop := x = .bus (Access.command 6)

/-- R181's table: a change of XSTATE from x to y by the input. -/
def ListedTransition (inp : Input) (x y : XState) : Prop :=
  (IsXferStart inp ∧ x = .idle ∧ y = .asserted) ∨
  (inp = .t1 ∧ x = .asserted ∧ y = .transferring) ∨
  ((∃ rx, inp = .t2 rx) ∧ x = .transferring ∧ y = .completed) ∨
  (inp = .t3 ∧ x = .transferring ∧ y = .fatal) ∨
  (inp = .t4 ∧ x = .completed ∧ y = .guard) ∨
  (inp = .t5 ∧ x = .guard ∧ y = .idle)

/-- The input the next step takes. -/
def State.head (s : State) : Input := (nextInput s).1

/-- The next step gives the bundle back: the end of the guard interval (R188), or reset (R300). -/
def GivesBack (s : State) : Prop := s.head = .rst ∨ (s.head = .t5 ∧ s.xstate = .guard)

/-- A run of any number of steps, of any agents, none of which gives the bundle back. -/
inductive RunWithoutGive (s : State) : State → Prop
  | here : RunWithoutGive s s
  | next {t u : State} (h : RunWithoutGive s t) (hs : step t = .next u) (hg : ¬ GivesBack t) : RunWithoutGive s u

/-- The cells from i on agree with `bs` wherever they are written. -/
def AgreesWhereWritten (s : State) (i : Nat) (bs : List Byte) : Prop :=
  ∀ k, k < bs.length → Memory.get s.buf (i + k) = none ∨ Memory.get s.buf (i + k) = bs[k]?

/-- The mode field is written and holds neither mode code (R130). -/
def ModeFieldUnknown (s : State) : Prop :=
  ∃ q, Holds s s.cfg.offMode s.cfg.wMode q ∧ orderedNat s.cfg.hdrOrder q ≠ s.cfg.modeNormal ∧
    orderedNat s.cfg.hdrOrder q ≠ s.cfg.modeSafety

/-- The sum, over the integers, of the words of R121 with the standalone trailing byte. -/
def wordSum (o : ByteOrder) : List Byte → Nat
  | [] => 0
  | [x] => x.toNat
  | x :: y :: bs =>
    (match o with
      | .be => x.toNat * 256 + y.toNat
      | .le => y.toNat * 256 + x.toNat) + wordSum o bs

/-- A frame image with bit k of byte j inverted. -/
def flipBit (F : List Byte) (j k : Nat) : List Byte := F.modify j fun b => b ^^^ (1#8 <<< k)

/-- A sealed frame image (R153, R155): the structure is right, the mode is Normal or Safety, and the two integrity
fields hold the values of the zeroed image. -/
structure IsSealed (c : Config) (F : List Byte) : Prop where
  frame  : c.admitted = true ∧ F.length = c.n
  struct : structOk c F = true
  mode   : modeOf c F ≠ .unknown
  csum   : csumF c F = checksum c.csumOrder (zeroed c F)
  crc    : crcF c F = if modeOf c F = .safety then crc32 (zeroed c F) else 0

/-- The image SEAL leaves in the buffer (R153): PutU(PutU(Z, OFF_CSUM, 2, c), OFF_CRC, 4, r). -/
def sealImage (c : Config) (F : List Byte) : List Byte :=
  putU c (putU c (zeroed c F) c.offCsum 2 (checksum c.csumOrder (zeroed c F)).toNat) c.offCrc 4
    (if modeOf c F = .safety then crc32 (zeroed c F) else 0#32).toNat

/-- The command word `op` is the instruction, and the same opcode with a reserved bit set is ILLEGAL (R91, R95). -/
def EncodedBy (op : Word) (i : Instr) : Prop :=
  decodeCmd op = .ok i ∧
    ∀ w : Word, w.extractLsb' 0 4 = op.extractLsb' 0 4 → w ≠ op → decodeCmd w = .error .illegalReservedBits

/-- The gate's errors of a command that needs the bundle: FATAL, then BUSY (spec/60_exceptions.md R273). -/
def BundleGate (i : Instr) : Prop :=
  (∀ s, s.xstate = .fatal → FailsWith i s .fatal) ∧
    (∀ s, s.xstate ≠ .fatal → s.owner = .dma → FailsWith i s .busy)

/-- The state with the outcome of a validation recorded (R154; the flags of R133), the CPU's access accepted. -/
def recorded (s : State) (r : Reason) (q : Word) : State :=
  { s with
    lastReason := r
    lastGap    := decide (r = .ok ∧ s.prevValid = true ∧ 1 < (q - s.prevSeq).toNat)
    lastRetro  := decide (r = .seq ∧ q.toNat < s.prevSeq.toNat)
    lastDup    := decide (r = .seq ∧ q = s.prevSeq)
    result     := q
    resp       := .accepted }

/-- The frame image lies within its configuration. -/
def IsFrame (c : Config) (F : List Byte) : Prop := c.admitted = true ∧ F.length = c.n

/-- The byte index lies outside the checksum and the CRC field. -/
def OutsideIntegrity (c : Config) (j : Nat) : Prop :=
  ¬ (c.offCsum ≤ j ∧ j < c.offCsum + 2) ∧ ¬ (c.offCrc ≤ j ∧ j < c.offCrc + 4)

end Sys2Proof.Machine
end

