-- ==== Sys2Proof/Certificates/Slice0/Obligations.lean ====
section
/-! DEFINITION. The statements for the provers, from the numbered rules of spec/. They hold in every state and for
every configuration, unless a premise says otherwise; the model's own fields (inputs, draws, resp, txFrames) stand in
them because a step writes them. `resp := .accepted` is the bus slave's answer to an accepted write (R51). -/

open Sys2Proof Sys2Proof.Machine

/-! ## Encoding -/

/-- 30_encoding.md sections 1 to 3: decoding the access of a well-formed instruction gives it back. -/
def Obligations.DecodeEncodeRoundTrip : Prop :=
  ∀ i : Instr, i.wellFormed = true → decode (encode i) = .ok i

/-- 30_encoding.md section 1, opcode_table.json: an access that decodes gives a well-formed instruction, and encoding
that gives the access back, but for data bits that carry nothing. -/
def Obligations.DecodeGivesCanonicalEncoding : Prop :=
  ∀ (a : Access) (i : Instr), decode a = .ok i → i.wellFormed = true ∧ encode i = a.canon

/-- notes/assumptions/7.md (the model's own packing of an access): the packed access of a well-formed instruction
decodes to it. -/
def Obligations.PackedAccessGivesInstruction : Prop :=
  ∀ i : Instr, i.wellFormed = true → decodeTableWord 48 (encode i).toWord.toNat = some i

/-- R91, R94: words and accesses written out from the tables, one or more of each family. -/
def Obligations.SpecWordsDecode : Prop :=
  decodeTableWord 32 0x00000003 = some .sealFrame ∧
  decodeTableWord 32 0x00000005 = some .consume ∧
  decodeTableWord 32 0x00000006 = some .xferStart ∧
  decodeTableWord 32 0x00000008 = some .clearErrs ∧
  decodeTableWord 32 0x00000013 = none ∧
  decode { dir := .write, width := 4, off := 0x018, data := 0x12345678 } = .ok (.wLen 0x12345678) ∧
  decode { dir := .write, width := 4, off := 0x010, data := 0xFFFFFFFF } = .ok (.wRoReg .status 0xFFFFFFFF) ∧
  decode { dir := .read, width := 4, off := 0x01C, data := 0 } = .ok (.rReg .prevSeq) ∧
  decode { dir := .read, width := 2, off := 0x1B4, data := 0 } = .ok (.rBuf .two 0x1B4) ∧
  decode { dir := .write, width := 1, off := 0x108, data := 0x39 } = .ok (.wBuf .one 0x108 0x39) ∧
  decode { dir := .write, width := 2, off := 0x00C, data := 3 } = .error .registerForm

/-- R92: the decoder of a command word, on every word; an illegal word ends the write with ILLEGAL in every state. -/
def Obligations.CommandWordDecoding : Prop :=
  (∀ w : Word, w.extractLsb' 4 28 ≠ 0 → decodeCmd w = .error .illegalReservedBits) ∧
  decodeCmd 0x0 = .ok .nop ∧ decodeCmd 0x1 = .ok .csum ∧ decodeCmd 0x2 = .ok .crc ∧ decodeCmd 0x3 = .ok .sealFrame ∧
  decodeCmd 0x4 = .ok .validate ∧ decodeCmd 0x5 = .ok .consume ∧ decodeCmd 0x6 = .ok .xferStart ∧
  decodeCmd 0x7 = .ok .sessionReset ∧ decodeCmd 0x8 = .ok .clearErrs ∧
  (∀ w : Word, w.extractLsb' 4 28 = 0 → 9 ≤ w.toNat → decodeCmd w = .error .illegalOpcode) ∧
  (∀ (s : State) (w : Word) (rest : List Input), s.cfg.admitted = true → 9 ≤ w.toNat →
    s.inputs = .bus (Access.command w) :: rest →
    step s = .next { s with inputs := rest, cmdErr := .illegal, resp := .accepted })

/-! ## Steps, accesses, configurations -/

/-- 00_scope.md R17: a step takes the next input; a bus access that decodes to an instruction runs that instruction,
in the state without that input. With no input listed the next input is a free value (the model's own,
notes/assumptions/1.md). -/
def Obligations.StepRunsDecodedInstruction : Prop :=
  (∀ (s : State) (a : Access) (i : Instr) (rest : List Input), s.cfg.admitted = true →
    s.inputs = .bus a :: rest → decode a = .ok i → step s = exec i { s with inputs := rest }) ∧
  (∀ (s : State) (x : Input) (rest : List Input), s.cfg.admitted = true → s.inputs = x :: rest →
    step s = perform x { s with inputs := rest }) ∧
  (∀ s : State, s.cfg.admitted = true → s.inputs = [] →
    step s = perform (Config.freeInput s.draws) { s with draws := s.draws + 1 })

/-- R64: exactly the accesses of (a) to (g) end with a bus error, nothing else changes, but OWN_ERR is set in case (f),
whatever other case applies. -/
def Obligations.RefusedAccessIsBusError : Prop :=
  ∀ (s : State) (a : Access) (rest : List Input), s.cfg.admitted = true → s.inputs = .bus a :: rest →
    (Refused s a →
      (¬ (InBufferWindow s.cfg a.off ∧ s.owner = .dma) →
        step s = .next { s with inputs := rest, resp := .busError }) ∧
      (InBufferWindow s.cfg a.off ∧ s.owner = .dma →
        step s = .next { s with inputs := rest, resp := .busError, ownErr := true })) ∧
    (¬ Refused s a → ∀ t, step s = .next t → t.resp ≠ .busError)

/-- R13 (with R7's PRE_LEN, TRL_LEN ≥ 1 and R8's W_MODE ∈ {1, 2, 4}): the admitted configurations, clause by clause;
the others are refused. -/
def Obligations.AdmittedConfigurations : Prop :=
  (∀ c : Config, c.admitted = true ↔
    (1 ≤ c.preamble.length ∧ 1 ≤ c.trailer.length ∧ (c.wMode = 1 ∨ c.wMode = 2 ∨ c.wMode = 4)) ∧
    (c.preamble.length + c.trailer.length + 160 ≤ c.n ∧ c.n ≤ 3840) ∧
    (∀ f ∈ [(c.offMode, c.wMode), (c.offSeq, 4), (c.offCsum, 2), (c.offCrc, 4)],
      c.preamble.length ≤ f.1 ∧ f.1 + f.2 ≤ c.n - c.trailer.length - 160) ∧
    ([(c.offMode, c.wMode), (c.offSeq, 4), (c.offCsum, 2), (c.offCrc, 4)].Pairwise fun f g =>
      ∀ x, ¬ ((f.1 ≤ x ∧ x < f.1 + f.2) ∧ (g.1 ≤ x ∧ x < g.1 + g.2))) ∧
    (c.offMode < c.offSeq ∧ c.offSeq < c.offCsum ∧ c.offCsum < c.offCrc) ∧
    (c.modeNormal ≠ c.modeSafety ∧ c.modeNormal < 2 ^ (8 * c.wMode) ∧ c.modeSafety < 2 ^ (8 * c.wMode))) ∧
  (∀ s : State, s.cfg.admitted = false → step s = .refused .configNotAdmitted)

/-- 60_exceptions.md section 2: FATAL, then BUSY, before a command's own checks, and NOP has no check. -/
def Obligations.GatePrecedence : Prop :=
  (∀ i ∈ fatalCommands, ∀ s : State, s.xstate = .fatal → FailsWith i s .fatal) ∧
  (∀ i ∈ bundleCommands, ∀ s : State, s.xstate ≠ .fatal → s.owner = .dma → FailsWith i s .busy) ∧
  (∀ s : State, exec .nop s = .next { s with resp := .accepted })

/-! ## Commands -/

/-- R250. -/
def Obligations.NopChangesNothing : Prop :=
  EncodedBy 0x0 .nop ∧ ∀ s : State, exec .nop s = .next { s with resp := .accepted }

/-- R251. -/
def Obligations.ClearErrsClears : Prop :=
  EncodedBy 0x8 .clearErrs ∧
  (∀ s : State, s.xstate = .fatal → FailsWith .clearErrs s .fatal) ∧
  (∀ s : State, s.xstate ≠ .fatal →
    exec .clearErrs s = .next { s with errCount := 0, cmdErr := .none, ownErr := false, resp := .accepted })

/-- R151. -/
def Obligations.CsumWritesChecksum : Prop :=
  EncodedBy 0x1 .csum ∧ BundleGate .csum ∧
  (∀ s : State, GateOpen s → (s.len.toNat = 0 ∨ s.cfg.n < s.len.toNat) → FailsWith .csum s .badLen) ∧
  (∀ s : State, GateOpen s → 1 ≤ s.len.toNat → s.len.toNat ≤ s.cfg.n → HasUnwritten s 0 s.len.toNat →
    exec .csum s = .fault .unwrittenByte) ∧
  (∀ (s : State) (bs : List Byte), GateOpen s → 1 ≤ s.len.toNat → s.len.toNat ≤ s.cfg.n →
    Holds s 0 s.len.toNat bs →
    exec .csum s =
      .next { s with result := (checksum s.cfg.csumOrder bs).setWidth 32, resp := .accepted }) ∧
  (∀ (o : ByteOrder) (x : Byte), checksum o [x] = ~~~ (x.setWidth 16)) ∧
  checksum .be [0x01, 0x02, 0x03, 0x04] = 0xFBF9 ∧ checksum .le [0x01, 0x02, 0x03, 0x04] = 0xF9FB

/-- R152. -/
def Obligations.CrcWritesCrc : Prop :=
  EncodedBy 0x2 .crc ∧ BundleGate .crc ∧
  (∀ s : State, GateOpen s → (s.len.toNat = 0 ∨ s.cfg.n < s.len.toNat) → FailsWith .crc s .badLen) ∧
  (∀ s : State, GateOpen s → 1 ≤ s.len.toNat → s.len.toNat ≤ s.cfg.n → HasUnwritten s 0 s.len.toNat →
    exec .crc s = .fault .unwrittenByte) ∧
  (∀ (s : State) (bs : List Byte), GateOpen s → 1 ≤ s.len.toNat → s.len.toNat ≤ s.cfg.n →
    Holds s 0 s.len.toNat bs →
    exec .crc s = .next { s with result := crc32 bs, resp := .accepted }) ∧
  crc32 [0x01, 0x02, 0x03, 0x04] = 0xA859F0BE

/-- R153: the checks, the fault, and the completion. The buffer after it holds the image R153 gives, and every byte
outside the two fields reads as before. (Which of BAD_MODE and the fault comes first where both apply is in
`Obligations.UnwrittenByteChoices`.) -/
def Obligations.SealStoresIntegrityFields : Prop :=
  EncodedBy 0x3 .sealFrame ∧ BundleGate .sealFrame ∧
  (∀ s : State, GateOpen s → HasUnwritten s 0 s.cfg.n → ¬ ModeFieldUnknown s →
    exec .sealFrame s = .fault .unwrittenByte) ∧
  (∀ (s : State) (F : List Byte), GateOpen s → Holds s 0 s.cfg.n F → modeOf s.cfg F = .unknown →
    FailsWith .sealFrame s .badMode) ∧
  (∀ (s : State) (F : List Byte), s.cfg.admitted = true → GateOpen s → Holds s 0 s.cfg.n F →
    modeOf s.cfg F ≠ .unknown →
    exec .sealFrame s =
      .next { s with buf := sealBuf s.cfg s.buf F
                     result := (checksum s.cfg.csumOrder (zeroed s.cfg F)).setWidth 32
                     resp := .accepted } ∧
    Holds { s with buf := sealBuf s.cfg s.buf F } 0 s.cfg.n (sealImage s.cfg F) ∧
    (∀ j, OutsideIntegrity s.cfg j → Memory.get (sealBuf s.cfg s.buf F) j = Memory.get s.buf j))

/-- R154: the checks; the faults on the bytes Validate reads in whatever order it compares (an unwritten preamble or
trailer byte while the written ones agree, then the sequence field, then any other); the outcome recorded, with nothing
else changed. -/
def Obligations.ValidateRecordsOutcome : Prop :=
  EncodedBy 0x4 .validate ∧ BundleGate .validate ∧
  (∀ (s : State) (F : List Byte), s.cfg.admitted = true → GateOpen s → Holds s 0 s.cfg.n F →
    exec .validate s =
      .next (recorded s (validate s.cfg F s.prevValid s.prevSeq).1 (validate s.cfg F s.prevValid s.prevSeq).2)) ∧
  (∀ s : State, GateOpen s → AgreesWhereWritten s 0 s.cfg.preamble →
    AgreesWhereWritten s (s.cfg.n - s.cfg.trlLen) s.cfg.trailer →
    (HasUnwritten s 0 s.cfg.preLen ∨ HasUnwritten s (s.cfg.n - s.cfg.trlLen) s.cfg.trlLen) →
    exec .validate s = .fault .unwrittenByte) ∧
  (∀ s : State, GateOpen s → Holds s 0 s.cfg.preLen s.cfg.preamble →
    Holds s (s.cfg.n - s.cfg.trlLen) s.cfg.trlLen s.cfg.trailer → HasUnwritten s s.cfg.offSeq 4 →
    exec .validate s = .fault .unwrittenByte) ∧
  (∀ (s : State) (q : List Byte), GateOpen s → Holds s 0 s.cfg.preLen s.cfg.preamble →
    Holds s (s.cfg.n - s.cfg.trlLen) s.cfg.trlLen s.cfg.trailer → Holds s s.cfg.offSeq 4 q →
    (s.prevValid = true → s.prevSeq.toNat < orderedNat s.cfg.hdrOrder q) → HasUnwritten s 0 s.cfg.n →
    exec .validate s = .fault .unwrittenByte)

/-- The model's choices where BUF is partly written. notes/assumptions/8.md: VALIDATE and CONSUME read the preamble and
the trailer whole before they compare, and an early outcome, with all that CONSUME tallies and moves, needs no other
byte. notes/assumptions/9.md: SEAL faults before it checks the mode. -/
def Obligations.UnwrittenByteChoices : Prop :=
  (∀ s : State, GateOpen s →
    (HasUnwritten s 0 s.cfg.preLen ∨ HasUnwritten s (s.cfg.n - s.cfg.trlLen) s.cfg.trlLen) →
    exec .validate s = .fault .unwrittenByte ∧ exec .consume s = .fault .unwrittenByte) ∧
  (∀ (s : State) (p t : List Byte), GateOpen s → Holds s 0 s.cfg.preLen p →
    Holds s (s.cfg.n - s.cfg.trlLen) s.cfg.trlLen t → (p ≠ s.cfg.preamble ∨ t ≠ s.cfg.trailer) →
    exec .validate s = .next (recorded s .struct 0) ∧
    exec .consume s = .next { recorded s .struct 0 with errCount := satInc s.errCount }) ∧
  (∀ (s : State) (b : List Byte) (q : Word), GateOpen s → Holds s 0 s.cfg.preLen s.cfg.preamble →
    Holds s (s.cfg.n - s.cfg.trlLen) s.cfg.trlLen s.cfg.trailer → Holds s s.cfg.offSeq 4 b →
    q.toNat = orderedNat s.cfg.hdrOrder b → s.prevValid = true →
    (q.toNat < s.prevSeq.toNat →
      exec .validate s = .next (recorded s .seq q) ∧
      exec .consume s = .next { recorded s .seq q with prevSeq := q, errCount := satInc s.errCount }) ∧
    (q = s.prevSeq →
      exec .validate s = .next (recorded s .seq q) ∧
      exec .consume s = .next { recorded s .seq q with errCount := satInc s.errCount })) ∧
  (∀ s : State, GateOpen s → HasUnwritten s 0 s.cfg.n → exec .sealFrame s = .fault .unwrittenByte)

/-- R132: the five steps in their order. -/
def Obligations.ValidationOrder : Prop :=
  ∀ (c : Config) (F : List Byte) (pv : Bool) (prev : Word),
    (¬ (preF c F = c.preamble ∧ trlF c F = c.trailer) → validate c F pv prev = (.struct, 0)) ∧
    (preF c F = c.preamble ∧ trlF c F = c.trailer →
      (pv = true ∧ ¬ prev.toNat < (seqF c F).toNat → validate c F pv prev = (.seq, seqF c F)) ∧
      (¬ (pv = true ∧ ¬ prev.toNat < (seqF c F).toNat) →
        (checksum c.csumOrder (zeroed c F) ≠ csumF c F → validate c F pv prev = (.csum, seqF c F)) ∧
        (checksum c.csumOrder (zeroed c F) = csumF c F →
          (modeF c F = c.modeNormal →
            (crcF c F ≠ 0 → validate c F pv prev = (.unexpCrc, seqF c F)) ∧
            (crcF c F = 0 → validate c F pv prev = (.ok, seqF c F))) ∧
          (modeF c F ≠ c.modeNormal → modeF c F = c.modeSafety →
            (crcF c F ≠ crc32 (zeroed c F) → validate c F pv prev = (.crc, seqF c F)) ∧
            (crcF c F = crc32 (zeroed c F) → validate c F pv prev = (.ok, seqF c F))) ∧
          (modeF c F ≠ c.modeNormal → modeF c F ≠ c.modeSafety →
            validate c F pv prev = (.mode, seqF c F)))))

/-- R221: the checks; the faults, as for VALIDATE; the outcome recorded and the tracker moved. -/
def Obligations.ConsumeMovesTracker : Prop :=
  EncodedBy 0x5 .consume ∧ BundleGate .consume ∧
  (∀ (s : State) (f : Fault), exec .consume s = .fault f ↔ exec .validate s = .fault f) ∧
  (∀ (s : State) (F : List Byte) (r : Reason) (q : Word), s.cfg.admitted = true → GateOpen s →
    Holds s 0 s.cfg.n F → validate s.cfg F s.prevValid s.prevSeq = (r, q) →
    (r = .ok → ¬ (s.prevValid = true ∧ 1 < (q - s.prevSeq).toNat) →
      exec .consume s = .next { recorded s r q with prevSeq := q, prevValid := true }) ∧
    (r = .ok → s.prevValid = true ∧ 1 < (q - s.prevSeq).toNat →
      exec .consume s =
        .next { recorded s r q with prevSeq := q, prevValid := true, errCount := satInc s.errCount }) ∧
    (r = .seq → q.toNat < s.prevSeq.toNat →
      exec .consume s = .next { recorded s r q with prevSeq := q, errCount := satInc s.errCount }) ∧
    (r ≠ .ok → ¬ (r = .seq ∧ q.toNat < s.prevSeq.toNat) →
      exec .consume s = .next { recorded s r q with errCount := satInc s.errCount }))

/-- R222. -/
def Obligations.TallySaturates : Prop :=
  ∀ x : Word, (x = 0xFFFFFFFF → satInc x = 0xFFFFFFFF) ∧ (x ≠ 0xFFFFFFFF → (satInc x).toNat = x.toNat + 1)

/-- R224. -/
def Obligations.SessionResetEndsSession : Prop :=
  EncodedBy 0x7 .sessionReset ∧
  (∀ s : State, s.xstate = .fatal → FailsWith .sessionReset s .fatal) ∧
  (∀ s : State, s.xstate ≠ .fatal →
    exec .sessionReset s = .next { s with prevValid := false, prevSeq := 0, resp := .accepted }) ∧
  (∀ s t : State, exec .sessionReset s = .next t → exec .sessionReset t = .next t) ∧
  (∀ (c : Config) (F : List Byte) (prev : Word), (validate c F false prev).1 ≠ .seq)

/-- R182: the gate, the completion, and the direction that stays as XFER_START found it. -/
def Obligations.XferStartTakesBundle : Prop :=
  EncodedBy 0x6 .xferStart ∧ BundleGate .xferStart ∧
  (∀ s : State, GateOpen s →
    exec .xferStart s = .next { s with xstate := .asserted, owner := .dma, csN := false, resp := .accepted }) ∧
  (∀ s t : State, GateOpen s → exec .xferStart s = .next t →
    t.dir = s.dir ∧ ∀ v : Word, FailsWith (.wCtrl v) t .busy)

/-- 20_memory.md section 5: a take that succeeds leaves the bundle held, and in every run from a held bundle with no
give-back in it, whatever its steps, a second take fails: with FATAL after a failed transfer, else with BUSY. -/
def Obligations.SecondTakeFails : Prop :=
  (∀ s t : State, GateOpen s → exec .xferStart s = .next t → t.owner = .dma ∧ FailsWith .xferStart t .busy) ∧
  (∀ s u : State, s.owner = .dma → RunWithoutGive s u →
    u.owner = .dma ∧
    (u.xstate = .fatal → FailsWith .xferStart u .fatal) ∧
    (u.xstate ≠ .fatal → FailsWith .xferStart u .busy))

/-! ## Registers and buffer accesses -/

/-- R252. -/
def Obligations.CtrlWriteOnlyInIdle : Prop :=
  (∀ (s : State) (v : Word), s.xstate = .idle → v.getLsbD 0 = false →
    exec (.wCtrl v) s = .next { s with dir := .transmit, resp := .accepted }) ∧
  (∀ (s : State) (v : Word), s.xstate = .idle → v.getLsbD 0 = true →
    exec (.wCtrl v) s = .next { s with dir := .receive, resp := .accepted }) ∧
  (∀ (s : State) (v : Word), s.xstate ≠ .idle → FailsWith (.wCtrl v) s .busy)

/-- R253. -/
def Obligations.IrqStatusWriteOneToClear : Prop :=
  ∀ (s : State) (v : Word), ∃ x : BitVec 2,
    exec (.wIrqStatus v) s = .next { s with irqStatus := x, resp := .accepted } ∧
    ∀ k, k < 2 → x.getLsbD k = (s.irqStatus.getLsbD k && !v.getLsbD k)

/-- R254. -/
def Obligations.IrqEnableWrite : Prop :=
  ∀ (s : State) (v : Word), ∃ x : BitVec 2,
    exec (.wIrqEnable v) s = .next { s with irqEnable := x, resp := .accepted } ∧ x.toNat = v.toNat % 4

/-- R255. -/
def Obligations.LenWrite : Prop :=
  ∀ (s : State) (v : Word), ∃ x : Half,
    exec (.wLen v) s = .next { s with len := x, resp := .accepted } ∧ x.toNat = v.toNat % 65536

/-- R256. -/
def Obligations.ReadOnlyWriteIgnored : Prop :=
  ∀ (s : State) (r : RoReg) (v : Word), exec (.wRoReg r v) s = .next { s with resp := .accepted }

/-- R257: every register's value, STATUS field by field, and no side effect; R21 and the code tables of STATUS: the code
of every XSTATE, LAST_REASON and CMD_ERR. -/
def Obligations.RegisterRead : Prop :=
  (∀ (s : State) (r : Reg), exec (.rReg r) s = .next { s with resp := .value (readReg s r) }) ∧
  (∀ s : State,
    readReg s .id = 0x46495501 ∧ readReg s .cmd = 0 ∧ readReg s .result = s.result ∧
    readReg s .prevSeq = s.prevSeq ∧ readReg s .errCount = s.errCount ∧
    (readReg s .ctrl).toNat = (if s.dir = .receive then 1 else 0) ∧
    (readReg s .len).toNat = s.len.toNat ∧
    (readReg s .irqStatus).toNat = s.irqStatus.toNat ∧
    (readReg s .irqEnable).toNat = s.irqEnable.toNat ∧
    (s.cfg.n ≤ 3840 → (readReg s .config).toNat =
      s.cfg.n + (if s.cfg.csumOrder = .le then 2 ^ 16 else 0) + (if s.cfg.hdrOrder = .be then 2 ^ 17 else 0)) ∧
    (readReg s .status).toNat =
      s.xstate.code.toNat + 2 ^ 3 * (if s.owner = .dma then 1 else 0) + 2 ^ 4 * s.csN.toNat +
      2 ^ 5 * (if s.xstate = .fatal then 1 else 0) + 2 ^ 6 * s.prevValid.toNat + 2 ^ 7 * s.ownErr.toNat +
      2 ^ 8 * s.lastReason.code.toNat + 2 ^ 12 * s.lastGap.toNat + 2 ^ 13 * s.lastRetro.toNat +
      2 ^ 14 * s.lastDup.toNat + 2 ^ 16 * s.cmdErr.code.toNat) ∧
  (∀ x : XState, x.code.toNat =
    match x with
    | .idle => 0 | .asserted => 1 | .transferring => 2 | .completed => 3 | .guard => 4 | .fatal => 7) ∧
  (∀ r : Reason, r.code.toNat =
    match r with
    | .none => 0 | .ok => 1 | .struct => 2 | .seq => 3 | .csum => 4 | .unexpCrc => 5 | .crc => 6 | .mode => 7) ∧
  (∀ e : CmdErr, e.code.toNat =
    match e with
    | .none => 0 | .illegal => 1 | .busy => 2 | .fatal => 3 | .badLen => 4 | .badMode => 5)

/-- R258: an accepted buffer read answers the little-endian value and changes nothing; an unwritten byte faults. -/
def Obligations.BufferRead : Prop :=
  (∀ (s : State) (n : Width) (i : Nat) (bs : List Byte), s.cfg.admitted = true → BufferAccepted s n i →
    Holds s i n.bytes bs → ∃ v : Word,
      exec (.rBuf n (BitVec.ofNat 12 (0x100 + i))) s = .next { s with resp := .value v } ∧
      v.toNat = ∑ k ∈ Finset.range n.bytes, (bs.getD k 0).toNat * 2 ^ (8 * k)) ∧
  (∀ (s : State) (n : Width) (i : Nat), s.cfg.admitted = true → BufferAccepted s n i →
    HasUnwritten s i n.bytes → exec (.rBuf n (BitVec.ofNat 12 (0x100 + i))) s = .fault .unwrittenByte)

/-- R259: an accepted buffer write stores its n bytes, little-endian, and changes no other byte. -/
def Obligations.BufferWrite : Prop :=
  ∀ (s : State) (n : Width) (i : Nat) (v : Word), s.cfg.admitted = true → BufferAccepted s n i →
    exec (.wBuf n (BitVec.ofNat 12 (0x100 + i)) v) s =
      .next { s with buf := Memory.setBytes s.buf i (leBytes n.bytes v.toNat), resp := .accepted } ∧
    (∀ k, k < n.bytes →
      Memory.get (Memory.setBytes s.buf i (leBytes n.bytes v.toNat)) (i + k) = some (v.extractLsb' (8 * k) 8)) ∧
    (∀ j, ¬ (i ≤ j ∧ j < i + n.bytes) →
      Memory.get (Memory.setBytes s.buf i (leBytes n.bytes v.toNat)) j = Memory.get s.buf j)

/-! ## The transfer engine -/

/-- R183 and R187: T1 and T4 change XSTATE and nothing else. -/
def Obligations.SequencerSteps : Prop :=
  (∀ s : State, s.xstate = .asserted → perform .t1 s = .next { s with xstate := .transferring }) ∧
  (∀ s : State, s.xstate = .completed → perform .t4 s = .next { s with xstate := .guard })

/-- R184: the completion, the fault, and that BUF and DIR stay as XFER_START found them until then. -/
def Obligations.TransmitCompletion : Prop :=
  (∀ (s : State) (rx F : List Byte), s.xstate = .transferring → s.dir = .transmit → Holds s 0 s.cfg.n F →
    perform (.t2 rx) s = .next { s with xstate := .completed, txFrames := s.txFrames ++ [F] }) ∧
  (∀ (s : State) (rx : List Byte), s.xstate = .transferring → s.dir = .transmit → HasUnwritten s 0 s.cfg.n →
    perform (.t2 rx) s = .fault .unwrittenByte) ∧
  (∀ s t : State, Inv s → s.owner = .dma → s.dir = .transmit → step s = .next t → s.head ≠ .rst →
    t.buf = s.buf ∧ t.dir = .transmit)

/-- R185: the received bytes may be any N bytes, every cell of BUF is written, and nothing else changes (but the
model's count of draws). -/
def Obligations.ReceiveCompletion : Prop :=
  (∀ (s : State) (d : List Byte), s.xstate = .transferring → s.dir = .receive → d.length = s.cfg.n →
    ∃ m : Memory, perform (.t2 d) s =
        .next { s with buf := m, xstate := .completed, draws := s.draws + s.cfg.n } ∧
      Holds { s with buf := m } 0 s.cfg.n d) ∧
  (∀ (s : State) (rx : List Byte), s.xstate = .transferring → s.dir = .receive →
    ∃ (m : Memory) (d : List Byte), perform (.t2 rx) s =
        .next { s with buf := m, xstate := .completed, draws := s.draws + s.cfg.n } ∧
      Holds { s with buf := m } 0 s.cfg.n d ∧ ∀ i, s.cfg.n ≤ i → Memory.get m i = none)

/-- R186: the fatal entry and what holds after it. -/
def Obligations.TransferFailureIsFatal : Prop :=
  (∀ s : State, s.xstate = .transferring → s.dir = .transmit →
    perform .t3 s = .next { s with xstate := .fatal, irqStatus := s.irqStatus ||| 0b10 }) ∧
  (∀ s : State, s.xstate = .transferring → s.dir = .receive →
    perform .t3 s = .next { s with xstate := .fatal, irqStatus := s.irqStatus ||| 0b10, buf := [] }) ∧
  (∀ s t : State, Inv s → s.xstate = .transferring → perform .t3 s = .next t →
    (∀ i ∈ fatalCommands, FailsWith i t .fatal) ∧
    (∀ a : Access, InBufferWindow t.cfg a.off →
      performAccess a t = .next { t with resp := .busError, ownErr := true }) ∧
    (∀ r : Reg, exec (.rReg r) t = .next { t with resp := .value (readReg t r) }) ∧
    (∀ (x : Input) (u : State), x ≠ .rst → perform x t = .next u → u.xstate = .fatal ∧ u.owner = t.owner))

/-- R188: chip-select, ownership, XSTATE and the pending bit, in one step. -/
def Obligations.GuardEndGivesBundleBack : Prop :=
  ∀ s : State, s.xstate = .guard →
    perform .t5 s = .next { s with csN := true, owner := .cpu, xstate := .idle, irqStatus := s.irqStatus ||| 0b01 }

/-- The model's choice (notes/assumptions/6.md, from R181's "no other transition exists"): an event that XSTATE does
not enable changes nothing. -/
def Obligations.DisabledEventChangesNothing : Prop :=
  ∀ s : State,
    (s.xstate ≠ .asserted → perform .t1 s = .next s) ∧
    (s.xstate ≠ .transferring → (∀ rx, perform (.t2 rx) s = .next s) ∧ perform .t3 s = .next s) ∧
    (s.xstate ≠ .completed → perform .t4 s = .next s) ∧
    (s.xstate ≠ .guard → perform .t5 s = .next s)

/-- R181: every change of XSTATE, apart from reset, is a row of the table; FATAL has no exit but reset. -/
def Obligations.OnlyListedTransitions : Prop :=
  ∀ s t : State, Inv s → step s = .next t → s.head ≠ .rst →
    t.xstate = s.xstate ∨ ListedTransition s.head s.xstate t.xstate

/-- R23 (and R22 for OWNER): who writes CS_N and OWNER, and what they write. -/
def Obligations.ChipSelectAndOwnerWriters : Prop :=
  (∀ s t : State, step s = .next t → t.csN ≠ s.csN →
    (IsXferStart s.head ∧ t.csN = false) ∨ (s.head = .t5 ∧ s.xstate = .guard ∧ t.csN = true) ∨
      (s.head = .rst ∧ t.csN = true)) ∧
  (∀ s t : State, step s = .next t → t.owner ≠ s.owner →
    (IsXferStart s.head ∧ t.owner = .dma) ∨ (s.head = .t5 ∧ s.xstate = .guard ∧ t.owner = .cpu) ∨
      (s.head = .rst ∧ t.owner = .cpu)) ∧
  (∀ s t : State, GateOpen s → exec .xferStart s = .next t → t.csN = false ∧ t.owner = .dma) ∧
  (∀ s t : State, s.xstate = .guard → perform .t5 s = .next t → t.csN = true ∧ t.owner = .cpu) ∧
  (∀ s t : State, perform .rst s = .next t → t.csN = true ∧ t.owner = .cpu) ∧
  (∀ s t : State, s.xstate = .transferring → perform .t3 s = .next t → t.csN = s.csN ∧ t.owner = s.owner)

/-- 60_exceptions.md section 3: from FATAL no step but reset moves XSTATE, OWNER or CS_N, and the frozen buffer keeps
every byte. -/
def Obligations.FatalIsTerminal : Prop :=
  ∀ s t : State, s.xstate = .fatal → step s = .next t → s.head ≠ .rst →
    t.xstate = .fatal ∧ t.owner = s.owner ∧ t.csN = s.csN ∧ (s.owner = .dma → t.buf = s.buf)

/-! ## Whole-machine invariants -/

/-- 10_state.md section 1 (the invariants), 20_memory.md: every step keeps the invariant. -/
def Obligations.InvariantKept : Prop := ∀ s t : State, Inv s → step s = .next t → Inv t

/-- The invariant holds after reset, in every admitted configuration and in the reference one. -/
def Obligations.InvariantAtReset : Prop :=
  (∀ c : Config, c.admitted = true → Inv (State.init c)) ∧ Inv State.reset

/-- R189. -/
def Obligations.ExclusiveOwnership : Prop :=
  ∀ s : State, Inv s →
    ((s.owner = .cpu ∧ s.xstate = .idle ∧ s.csN = true) ∨
      (s.owner = .dma ∧ s.xstate ∈ [XState.asserted, .transferring, .completed, .guard] ∧ s.csN = false) ∨
      (s.owner = .dma ∧ s.xstate = .fatal ∧ s.csN = false)) ∧
    (s.xstate ≠ .idle →
      (∀ i ∈ bundleCommands, FailsWith i s .busy ∨ FailsWith i s .fatal) ∧
      (∀ a : Access, InBufferWindow s.cfg a.off →
        performAccess a s = .next { s with resp := .busError, ownErr := true }))

/-- "no code path may read or write the buffer while a transfer holds it" (R22, R64): while the DMA owns the bundle, a
CPU access always answers, leaves every byte of the buffer, and neither its answer nor any other field depends on
the buffer's contents. -/
def Obligations.OwnedBufferIsIsolatedFromCpu : Prop :=
  ∀ (s : State) (m : Memory) (a : Access) (rest : List Input), s.cfg.admitted = true → s.owner = .dma →
    s.inputs = .bus a :: rest →
    ∃ t : State, step s = .next t ∧ t.buf = s.buf ∧ step { s with buf := m } = .next { t with buf := m }

/-- R190: the five steps of a transfer and the STATUS values they pass through. -/
def Obligations.SuccessfulTransferSequence : Prop :=
  ∀ (s : State) (rx : List Byte), Inv s → s.xstate = .idle → (s.dir = .transmit → ∃ F, Holds s 0 s.cfg.n F) →
    s.inputs = [.bus (Access.command 6), .t1, .t2 rx, .t4, .t5] →
    ∃ t1 t2 t3 t4 t5 : State,
      step s = .next t1 ∧ step t1 = .next t2 ∧ step t2 = .next t3 ∧ step t3 = .next t4 ∧ step t4 = .next t5 ∧
      ([s, t1, t2, t3, t4, t5].map fun u => (statusWord u).toNat % 64) = [0x10, 0x09, 0x0A, 0x0B, 0x0C, 0x10] ∧
      (∀ u ∈ [t1, t2, t3, t4, t5], (statusWord u).toNat / 64 = (statusWord s).toNat / 64) ∧
      (∀ u ∈ [t1, t2, t3, t4], u.irqStatus = s.irqStatus) ∧ t5.irqStatus = s.irqStatus ||| 0b01

/-- R300: the reset step, in every state, and that nothing else leaves FATAL. -/
def Obligations.ResetStep : Prop :=
  (∀ s : State, perform .rst s = .next
    { buf := [], dir := .transmit, xstate := .idle, owner := .cpu, csN := true, prevValid := false, prevSeq := 0
      errCount := 0, lastReason := .none, lastGap := false, lastRetro := false, lastDup := false, cmdErr := .none
      ownErr := false, result := 0, len := BitVec.ofNat 16 s.cfg.n, irqStatus := 0, irqEnable := 0
      cfg := s.cfg, inputs := s.inputs, draws := s.draws, resp := s.resp, txFrames := s.txFrames }) ∧
  (∀ s t : State, s.xstate = .fatal → step s = .next t → t.xstate ≠ .fatal → s.head = .rst)

/-- R52: the reset value of every state element, in every configuration. -/
def Obligations.ResetValues : Prop :=
  ∀ c : Config,
    (∀ i, Memory.get (State.init c).buf i = none) ∧ (State.init c).dir = .transmit ∧
    (State.init c).xstate = .idle ∧ (State.init c).owner = .cpu ∧ (State.init c).csN = true ∧
    (State.init c).prevValid = false ∧ (State.init c).prevSeq = 0 ∧ (State.init c).errCount = 0 ∧
    (State.init c).lastReason = .none ∧ (State.init c).lastGap = false ∧ (State.init c).lastRetro = false ∧
    (State.init c).lastDup = false ∧ (State.init c).cmdErr = .none ∧ (State.init c).ownErr = false ∧
    (State.init c).result = 0 ∧ (c.admitted = true → (State.init c).len.toNat = c.n) ∧
    (State.init c).irqStatus = 0 ∧ (State.init c).irqEnable = 0 ∧ (State.init c).irq = false ∧
    statusWord (State.init c) = 0x00000010

/-- R301: reset during a transfer abandons it. The machine is then in IDLE, where T2, T3 and T5 are not enabled, and no
such event emits a frame, writes BUF or raises an interrupt there. -/
def Obligations.ResetAbandonsTransfer : Prop :=
  ∀ s t : State, s.xstate ∈ [XState.asserted, .transferring, .completed, .guard] → perform .rst s = .next t →
    t.csN = true ∧ t.owner = .cpu ∧ t.xstate = .idle ∧ t.txFrames = s.txFrames ∧ t.irqStatus = 0 ∧ t.irq = false ∧
    (∀ (x : Input) (u : State), ((∃ rx, x = .t2 rx) ∨ x = .t3 ∨ x = .t5) → perform x t = .next u →
      u.txFrames = s.txFrames ∧ u.buf = t.buf ∧ u.irqStatus = 0)

/-- R278. -/
def Obligations.IrqOutput : Prop :=
  ∀ s : State, s.irq = true ↔
    (s.irqStatus.getLsbD 0 = true ∧ s.irqEnable.getLsbD 0 = true) ∨
    (s.irqStatus.getLsbD 1 = true ∧ s.irqEnable.getLsbD 1 = true)

/-- R26: who writes the tracker state; PREV_VALID becomes 1 only when CONSUME accepts a frame, and 0 only when a
session ends. -/
def Obligations.TrackerWriters : Prop :=
  ∀ s t : State, step s = .next t →
    ((t.prevValid ≠ s.prevValid ∨ t.prevSeq ≠ s.prevSeq) →
      s.head = .bus (Access.command 5) ∨ s.head = .bus (Access.command 7) ∨ s.head = .rst) ∧
    (t.errCount ≠ s.errCount →
      (s.head = .bus (Access.command 5) ∧ t.errCount = satInc s.errCount) ∨
      (s.head = .bus (Access.command 8) ∧ t.errCount = 0) ∨ (s.head = .rst ∧ t.errCount = 0)) ∧
    (s.prevValid = false → t.prevValid = true → s.head = .bus (Access.command 5) ∧ t.lastReason = .ok) ∧
    (s.prevValid = true → t.prevValid = false → s.head = .bus (Access.command 7) ∨ s.head = .rst)

/-- R272: a command error sets CMD_ERR and changes nothing else; CMD_ERR keeps its code in every step that does not end
in a command error, but for CLEAR_ERRS and reset. 10_state.md section 2 (STATUS): OWN_ERR is sticky too. -/
def Obligations.ErrorFieldsAreSticky : Prop :=
  (∀ (s : State) (x : Input) (rest : List Input) (e : CmdErr), s.cfg.admitted = true → s.inputs = x :: rest →
    CommandErrorOf s x e → step s = .next { s with inputs := rest, cmdErr := e, resp := .accepted }) ∧
  (∀ s t : State, step s = .next t → (∀ e, ¬ CommandErrorOf s s.head e) → s.head ≠ .bus (Access.command 8) →
    s.head ≠ .rst → t.cmdErr = s.cmdErr) ∧
  (∀ s t : State, step s = .next t → s.ownErr = true → s.head ≠ .bus (Access.command 8) → s.head ≠ .rst →
    t.ownErr = true)

/-- 10_state.md section 2 (RESULT): only CSUM, CRC, SEAL, VALIDATE and CONSUME, ending without a command error, and
reset, change RESULT. -/
def Obligations.ResultWriters : Prop :=
  ∀ s t : State, step s = .next t → t.result ≠ s.result →
    ((∃ k : Nat, 1 ≤ k ∧ k ≤ 5 ∧ s.head = .bus (Access.command (BitVec.ofNat 32 k))) ∧ t.cmdErr = s.cmdErr) ∨
    s.head = .rst

/-! ## The integrity functions -/

/-- R122: the accumulator is exact, the fold ends within two rounds, and the result is the complement of the
one's-complement sum. -/
def Obligations.ChecksumIsOnesComplementSum : Prop :=
  ∀ (o : ByteOrder) (b : List Byte), 1 ≤ b.length → b.length ≤ 3840 →
    wordSum o b ≤ 0x077FF97F ∧ (csumAdd o 0 b).toNat = wordSum o b ∧
    (csumFold 2 (csumAdd o 0 b)).toNat < 65536 ∧
    (~~~ checksum o b).toNat = if wordSum o b = 0 then 0 else (wordSum o b - 1) % 65535 + 1

/-- R123: (a) any single flipped bit changes the checksum; (b) the two integrity fields do not count. -/
def Obligations.ChecksumDetectsSingleBit : Prop :=
  (∀ (o : ByteOrder) (b : List Byte) (j k : Nat), b.length ≤ 3840 → j < b.length → k < 8 →
    checksum o (flipBit b j k) ≠ checksum o b) ∧
  (∀ (c : Config) (F G : List Byte), IsFrame c F → IsFrame c G →
    (∀ j, OutsideIntegrity c j → F[j]? = G[j]?) →
    checksum c.csumOrder (zeroed c F) = checksum c.csumOrder (zeroed c G))

/-- R125: the check value, and the residue after any message followed by its CRC. -/
def Obligations.CrcCheckAndResidue : Prop :=
  crc32 [0x31, 0x32, 0x33, 0x34, 0x35, 0x36, 0x37, 0x38, 0x39] = 0x1697D06A ∧
  ∀ b : List Byte, crcRegister (b ++ leBytes 4 (crc32 b).toNat) = 0x904CDDBF

/-- R127: the value GetU reads, in either header order; R128: PutU stores the value that GetU reads back, and no other
byte. -/
def Obligations.FieldGetAndPut : Prop :=
  (∀ (c : Config) (F : List Byte) (off w : Nat), off + w ≤ F.length →
    (c.hdrOrder = .le → getU c F off w = ∑ k ∈ Finset.range w, (F.getD (off + k) 0).toNat * 2 ^ (8 * k)) ∧
    (c.hdrOrder = .be → getU c F off w = ∑ k ∈ Finset.range w, (F.getD (off + k) 0).toNat * 2 ^ (8 * (w - 1 - k)))) ∧
  (∀ (c : Config) (F : List Byte) (off w v : Nat), off + w ≤ F.length →
    getU c (putU c F off w v) off w = v % 2 ^ (8 * w) ∧
    (putU c F off w v).length = F.length ∧
    ∀ j, ¬ (off ≤ j ∧ j < off + w) → (putU c F off w v)[j]? = F[j]?)

/-- R133: the three flags of a validation's outcome. -/
def Obligations.ContinuityFlags : Prop :=
  ∀ (c : Config) (F : List Byte) (pv : Bool) (prev q : Word) (r : Reason), validate c F pv prev = (r, q) →
    (gapFlag r q pv prev = true ↔ r = .ok ∧ pv = true ∧ 1 < (q - prev).toNat) ∧
    (retroFlag r q prev = true ↔ r = .seq ∧ q.toNat < prev.toNat) ∧
    (dupFlag r q prev = true ↔ r = .seq ∧ q = prev) ∧
    ¬ (gapFlag r q pv prev = true ∧ retroFlag r q prev = true) ∧
    ¬ (gapFlag r q pv prev = true ∧ dupFlag r q prev = true) ∧
    ¬ (retroFlag r q prev = true ∧ dupFlag r q prev = true) ∧
    (r = .seq → pv = true ∧ q.toNat ≤ prev.toNat ∧ (retroFlag r q prev = true ∨ dupFlag r q prev = true)) ∧
    (r = .ok → pv = true → prev.toNat < q.toNat ∧ (q - prev).toNat = q.toNat - prev.toNat)

/-- R155: seal then validate. -/
def Obligations.SealThenValidateIsOk : Prop :=
  ∀ (s : State) (F : List Byte), s.cfg.admitted = true → GateOpen s → Holds s 0 s.cfg.n F →
    structOk s.cfg F = true → modeOf s.cfg F ≠ .unknown →
    (s.prevValid = false ∨ s.prevSeq.toNat < (seqF s.cfg F).toNat) →
    ∃ t u : State, exec .sealFrame s = .next t ∧ exec .validate t = .next u ∧
      u.lastReason = .ok ∧ u.result = seqF s.cfg F

/-- R156: a second SEAL changes nothing. -/
def Obligations.SealIsIdempotent : Prop :=
  ∀ (s : State) (F : List Byte), Inv s → GateOpen s → Holds s 0 s.cfg.n F → modeOf s.cfg F ≠ .unknown →
    ∃ t : State, exec .sealFrame s = .next t ∧ exec .sealFrame t = .next t

/-- R157: what SEAL leaves is sealed, and the outcome of every tampering, with PREV_VALID = 0. -/
def Obligations.TamperingIsDetected : Prop :=
  (∀ (c : Config) (F : List Byte), IsFrame c F → structOk c F = true → modeOf c F ≠ .unknown →
    IsSealed c (sealImage c F)) ∧
  (∀ (c : Config) (F : List Byte) (prev : Word), IsSealed c F →
    (∀ j k, c.n - c.trlLen - 160 ≤ j → j < c.n - c.trlLen → k < 8 →
      (validate c (flipBit F j k) false prev).1 = .csum) ∧
    (∀ v : Word, modeOf c F = .normal → v ≠ 0 →
      (validate c (putU c F c.offCrc 4 v.toNat) false prev).1 = .unexpCrc) ∧
    (∀ v : Word, modeOf c F = .safety → v ≠ crcF c F →
      (validate c (putU c F c.offCrc 4 v.toNat) false prev).1 = .crc) ∧
    (∀ G : List Byte, G.length = c.n →
      (∃ j, (j < c.preLen ∨ (c.n - c.trlLen ≤ j ∧ j < c.n)) ∧ G[j]? ≠ F[j]?) →
      (validate c G false prev).1 = .struct))

/-- R223: with PREV_SEQ = 0xFFFFFFFF held, every structurally valid frame is rejected with SEQ: the duplicate leaves
PREV_SEQ, every other sequence, 0 among them, moves it and costs one tally; a new session has no such rejection. -/
def Obligations.SequenceWrapAround : Prop :=
  (∀ (s : State) (F : List Byte), s.cfg.admitted = true → GateOpen s → Holds s 0 s.cfg.n F →
    structOk s.cfg F = true → s.prevValid = true → s.prevSeq = 0xFFFFFFFF →
    (seqF s.cfg F = 0xFFFFFFFF →
      exec .consume s = .next { recorded s .seq 0xFFFFFFFF with errCount := satInc s.errCount }) ∧
    (seqF s.cfg F ≠ 0xFFFFFFFF →
      exec .consume s =
        .next { recorded s .seq (seqF s.cfg F) with prevSeq := seqF s.cfg F, errCount := satInc s.errCount })) ∧
  (∀ (c : Config) (F : List Byte) (prev : Word), (validate c F false prev).1 ≠ .seq)
end

