-- ==== Sys2Proof/Laws/Config.lean ====
section
/-! SUPPORT. What an admitted configuration (spec/00_scope.md R13) gives, as one list of inequalities. -/

namespace Sys2Proof.Machine

/-- The sizes of R13(a) with R7's lower bounds. -/
theorem admitted_sizes {c : Config} (h : c.admitted = true) :
    1 ≤ c.preLen ∧ 1 ≤ c.trlLen ∧ c.preLen + c.trlLen + 160 ≤ c.n ∧ c.n ≤ 3840 := by
  simp only [Config.admitted, Bool.and_eq_true] at h
  have hs := h.1.1.1.1
  simp only [Config.sizesOk, Bool.and_eq_true, decide_eq_true_eq] at hs
  exact ⟨hs.1.1.1, hs.1.1.2, hs.1.2, hs.2⟩

/-- The four fields of R8 stand in the header region, in R13(d)'s order, without overlap. -/
theorem admitted_fields {c : Config} (h : c.admitted = true) :
    c.preLen ≤ c.offMode ∧ c.offMode + c.wMode ≤ c.offSeq ∧ c.offSeq + 4 ≤ c.offCsum ∧ c.offCsum + 2 ≤ c.offCrc ∧
      c.offCrc + 4 + c.trlLen + 160 ≤ c.n := by
  simp only [Config.admitted, Bool.and_eq_true] at h
  obtain ⟨⟨⟨⟨-, hi⟩, hd⟩, ho⟩, hm⟩ := h
  simp only [Config.fieldsInside, Config.fields, List.all_cons, List.all_nil, Bool.and_true, Bool.and_eq_true,
    decide_eq_true_eq] at hi
  simp only [Config.fieldsDisjoint, decide_eq_true_eq] at hd
  simp only [Config.fields, List.pairwise_cons, List.mem_cons, List.not_mem_nil, or_false, forall_eq_or_imp,
    forall_eq] at hd
  simp only [Config.fieldsOrdered, Bool.and_eq_true, decide_eq_true_eq] at ho
  obtain ⟨⟨hi1, -⟩, -, -, -, hi4⟩ := hi
  obtain ⟨⟨d1, -, -⟩, ⟨d2, -⟩, d3, -⟩ := hd
  obtain ⟨⟨o1, o2⟩, o3⟩ := ho
  have hw : 1 ≤ c.wMode := by
    simp only [Config.modesOk, Bool.and_eq_true, Bool.or_eq_true, beq_iff_eq] at hm
    have := hm.1.1.1
    clear * - this
    omega
  have hp : Config.payloadSize = 160 := rfl
  rw [hp] at hi4
  clear hm
  refine ⟨hi1, ?_, ?_, ?_, hi4⟩ <;> omega

end Sys2Proof.Machine
end

