-- ==== Sys2Proof/Laws/Memory.lean ====
section
/-! SUPPORT. The laws of the frame buffer: a read after a write to the same cell gives the byte written, a write leaves
every other cell alone, and every operation keeps the canonical form. -/

namespace Sys2Proof.Machine

@[simp] theorem Memory.get_nil (i : Nat) : Memory.get [] i = none := rfl

/-- In a canonical memory every listed index after the first is greater. -/
theorem Memory.wf_cons {i : Nat} {b : Byte} {m : Memory} :
    Memory.wf ((i, b) :: m) = true ↔ (∀ p ∈ m, i < p.1) ∧ Memory.wf m = true := by
  induction m generalizing i b with
  | nil => simp [Memory.wf]
  | cons p m ih =>
    obtain ⟨j, c⟩ := p
    simp only [Memory.wf, Bool.and_eq_true, decide_eq_true_eq, List.mem_cons, forall_eq_or_imp]
    constructor
    · rintro ⟨hij, hw⟩
      exact ⟨⟨hij, fun q hq => lt_trans hij ((ih.mp hw).1 q hq)⟩, hw⟩
    · rintro ⟨⟨hij, -⟩, hw⟩
      exact ⟨hij, hw⟩

/-- The cells listed after a write: those listed before, and the one written. -/
theorem Memory.mem_set {m : Memory} {i : Nat} {b : Byte} {p : Host.Cell} (h : p ∈ Memory.set m i b) :
    p = (i, b) ∨ p ∈ m := by
  induction m with
  | nil => simpa [Memory.set] using h
  | cons q m ih =>
    obtain ⟨j, c⟩ := q
    simp only [Memory.set] at h
    split at h
    · simpa using h
    · split at h
      · rcases List.mem_cons.mp h with h | h
        · exact .inl h
        · exact .inr (List.mem_cons_of_mem _ h)
      · rcases List.mem_cons.mp h with h | h
        · exact .inr (by simp [h])
        · exact (ih h).imp id (List.mem_cons_of_mem _)

/-- Writing a cell keeps the canonical form. -/
theorem Memory.wf_set {m : Memory} (h : Memory.wf m = true) (i : Nat) (b : Byte) :
    Memory.wf (Memory.set m i b) = true := by
  induction m with
  | nil => rfl
  | cons q m ih =>
    obtain ⟨j, c⟩ := q
    obtain ⟨hj, hm⟩ := Memory.wf_cons.mp h
    simp only [Memory.set]
    split
    · rename_i hij
      exact Memory.wf_cons.mpr ⟨by rintro p (_ | ⟨_, hp⟩); exacts [hij, lt_trans hij (hj p hp)], h⟩
    · split
      · rename_i hij
        exact Memory.wf_cons.mpr ⟨fun p hp => hij ▸ hj p hp, hm⟩
      · refine Memory.wf_cons.mpr ⟨fun p hp => ?_, ih hm⟩
        rcases Memory.mem_set hp with rfl | hp
        · show j < i
          omega
        · exact hj p hp

/-- An index below every listed one is unwritten. -/
theorem Memory.get_none_of_lt {m : Memory} {i : Nat} (h : ∀ p ∈ m, i < p.1) : Memory.get m i = none := by
  induction m with
  | nil => rfl
  | cons q m ih =>
    obtain ⟨j, c⟩ := q
    have := h (j, c) (by simp)
    rw [Memory.get, if_neg (by simp at this; omega)]
    exact ih fun p hp => h p (List.mem_cons_of_mem _ hp)

/-- A read after a write of one cell. -/
theorem Memory.get_set (m : Memory) (i j : Nat) (b : Byte) :
    Memory.get (Memory.set m i b) j = if j = i then some b else Memory.get m j := by
  induction m with
  | nil => simp [Memory.set, Memory.get, eq_comm]
  | cons q m ih =>
    obtain ⟨l, c⟩ := q
    simp only [Memory.set]
    split
    · simp only [Memory.get, eq_comm (a := i)]
    · split
      · subst_vars
        simp only [Memory.get, eq_comm (b := j)]
        split <;> rfl
      · simp only [Memory.get, ih]
        by_cases hl : l = j <;> by_cases hj : j = i <;> simp_all

/-- A read after a write of several cells. -/
theorem Memory.get_setBytes (m : Memory) (i : Nat) (bs : List Byte) (j : Nat) :
    Memory.get (Memory.setBytes m i bs) j =
      if i ≤ j ∧ j < i + bs.length then bs[j - i]? else Memory.get m j := by
  induction bs generalizing m i with
  | nil => rw [Memory.setBytes, if_neg (by simp)]
  | cons b bs ih =>
    rw [Memory.setBytes, ih, Memory.get_set]
    by_cases hj : j = i
    · subst hj; simp
    · by_cases h : i + 1 ≤ j ∧ j < i + 1 + bs.length
      · obtain ⟨k, rfl⟩ : ∃ k, j = i + 1 + k := ⟨j - (i + 1), by omega⟩
        rw [if_pos h, if_pos (by simp only [List.length_cons]; omega)]
        rw [show i + 1 + k - (i + 1) = k by omega, show i + 1 + k - i = k + 1 by omega]
        simp
      · rw [if_neg h, if_neg hj, if_neg (by simp only [List.length_cons]; omega)]

/-- Writing several cells keeps the canonical form. -/
theorem Memory.wf_setBytes {m : Memory} (h : Memory.wf m = true) (i : Nat) (bs : List Byte) :
    Memory.wf (Memory.setBytes m i bs) = true := by
  induction bs generalizing m i with
  | nil => exact h
  | cons b bs ih => exact ih (Memory.wf_set h i b) (i + 1)

/-- SEAL's two stores keep the canonical form. -/
theorem Memory.wf_sealBuf {m : Memory} (h : Memory.wf m = true) (c : Config) (F : List Byte) :
    Memory.wf (sealBuf c m F) = true := Memory.wf_setBytes (Memory.wf_setBytes h _ _) _ _

/-- The buffer after reset is canonical. -/
theorem Memory.wf_reset : Memory.wf State.reset.buf = true := rfl

/-- getBytes reads `bs` exactly when its cells hold them. -/
theorem Memory.getBytes_eq_some {m : Memory} {i n : Nat} {bs : List Byte} :
    Memory.getBytes m i n = some bs ↔ bs.length = n ∧ ∀ k, k < n → Memory.get m (i + k) = bs[k]? := by
  induction n generalizing i bs with
  | zero => simp [Memory.getBytes, eq_comm (a := ([] : List Byte))]
  | succ n ih =>
    rw [Memory.getBytes]
    cases bs with
    | nil => split <;> simp
    | cons b bs =>
      constructor
      · intro h
        split at h
        · rename_i b' bs' hb hbs
          cases h
          obtain ⟨hl, hk⟩ := ih.mp hbs
          refine ⟨by simp [hl], fun k hk' => ?_⟩
          cases k with
          | zero => simpa using hb
          | succ k => simpa [Nat.add_assoc, Nat.add_comm 1] using hk k (by omega)
        · cases h
      · rintro ⟨hl, hk⟩
        have h0 : Memory.get m i = some b := by simpa using hk 0 (by omega)
        have h1 : Memory.getBytes m (i + 1) n = some bs :=
          ih.mpr ⟨by simpa using hl, fun k hk' => by
            simpa [Nat.add_assoc, Nat.add_comm 1] using hk (k + 1) (by omega)⟩
        rw [h0, h1]

/-- getBytes fails exactly when one of its cells is unwritten. -/
theorem Memory.getBytes_eq_none {m : Memory} {i n : Nat} :
    Memory.getBytes m i n = none ↔ ∃ k, k < n ∧ Memory.get m (i + k) = none := by
  induction n generalizing i with
  | zero => simp [Memory.getBytes]
  | succ n ih =>
    have split0 : (∃ k, k < n + 1 ∧ Memory.get m (i + k) = none) ↔
        Memory.get m i = none ∨ ∃ k, k < n ∧ Memory.get m (i + 1 + k) = none := by
      constructor
      · rintro ⟨k, hk, h⟩
        cases k with
        | zero => exact .inl (by simpa using h)
        | succ k => exact .inr ⟨k, by omega, by simpa [Nat.add_assoc, Nat.add_comm 1] using h⟩
      · rintro (h | ⟨k, hk, h⟩)
        · exact ⟨0, by omega, by simpa using h⟩
        · exact ⟨k + 1, by omega, by simpa [Nat.add_assoc, Nat.add_comm 1] using h⟩
    rw [split0, ← ih, Memory.getBytes]
    cases Memory.get m i <;> cases Memory.getBytes m (i + 1) n <;> simp

/-- What getBytes reads in part of a range it reads whole. -/
theorem Memory.getBytes_slice {m : Memory} {n : Nat} {F : List Byte} (h : Memory.getBytes m 0 n = some F)
    {off w : Nat} (hw : off + w ≤ n) : Memory.getBytes m off w = some (slice F off w) := by
  obtain ⟨hl, hk⟩ := Memory.getBytes_eq_some.mp h
  refine Memory.getBytes_eq_some.mpr ⟨by simp [slice]; omega, fun k hkw => ?_⟩
  have := hk (off + k) (by omega)
  rw [Nat.zero_add] at this
  rw [this, slice, List.getElem?_take, if_pos hkw, List.getElem?_drop]

end Sys2Proof.Machine
end

