-- ==== Sys2Proof/Laws/State.lean ====
section
/-! SUPPORT. One lemma per field of State per named update, true by rfl, so that no proof unfolds an update; and the
fields that the tracker's update and the fatal entry leave alone. -/

namespace Sys2Proof.Machine

/-! ### State.reply -/

@[simp] theorem State.reply_buf (s : State) (r : BusResponse) : (s.reply r).buf = s.buf := rfl
@[simp] theorem State.reply_dir (s : State) (r : BusResponse) : (s.reply r).dir = s.dir := rfl
@[simp] theorem State.reply_xstate (s : State) (r : BusResponse) : (s.reply r).xstate = s.xstate := rfl
@[simp] theorem State.reply_owner (s : State) (r : BusResponse) : (s.reply r).owner = s.owner := rfl
@[simp] theorem State.reply_csN (s : State) (r : BusResponse) : (s.reply r).csN = s.csN := rfl
@[simp] theorem State.reply_prevValid (s : State) (r : BusResponse) : (s.reply r).prevValid = s.prevValid := rfl
@[simp] theorem State.reply_prevSeq (s : State) (r : BusResponse) : (s.reply r).prevSeq = s.prevSeq := rfl
@[simp] theorem State.reply_errCount (s : State) (r : BusResponse) : (s.reply r).errCount = s.errCount := rfl
@[simp] theorem State.reply_lastReason (s : State) (r : BusResponse) : (s.reply r).lastReason = s.lastReason := rfl
@[simp] theorem State.reply_lastGap (s : State) (r : BusResponse) : (s.reply r).lastGap = s.lastGap := rfl
@[simp] theorem State.reply_lastRetro (s : State) (r : BusResponse) : (s.reply r).lastRetro = s.lastRetro := rfl
@[simp] theorem State.reply_lastDup (s : State) (r : BusResponse) : (s.reply r).lastDup = s.lastDup := rfl
@[simp] theorem State.reply_cmdErr (s : State) (r : BusResponse) : (s.reply r).cmdErr = s.cmdErr := rfl
@[simp] theorem State.reply_ownErr (s : State) (r : BusResponse) : (s.reply r).ownErr = s.ownErr := rfl
@[simp] theorem State.reply_result (s : State) (r : BusResponse) : (s.reply r).result = s.result := rfl
@[simp] theorem State.reply_len (s : State) (r : BusResponse) : (s.reply r).len = s.len := rfl
@[simp] theorem State.reply_irqStatus (s : State) (r : BusResponse) : (s.reply r).irqStatus = s.irqStatus := rfl
@[simp] theorem State.reply_irqEnable (s : State) (r : BusResponse) : (s.reply r).irqEnable = s.irqEnable := rfl
@[simp] theorem State.reply_cfg (s : State) (r : BusResponse) : (s.reply r).cfg = s.cfg := rfl
@[simp] theorem State.reply_inputs (s : State) (r : BusResponse) : (s.reply r).inputs = s.inputs := rfl
@[simp] theorem State.reply_draws (s : State) (r : BusResponse) : (s.reply r).draws = s.draws := rfl
@[simp] theorem State.reply_resp (s : State) (r : BusResponse) : (s.reply r).resp = r := rfl
@[simp] theorem State.reply_txFrames (s : State) (r : BusResponse) : (s.reply r).txFrames = s.txFrames := rfl

/-! ### State.setResult -/

@[simp] theorem State.setResult_buf (s : State) (v : Word) : (s.setResult v).buf = s.buf := rfl
@[simp] theorem State.setResult_dir (s : State) (v : Word) : (s.setResult v).dir = s.dir := rfl
@[simp] theorem State.setResult_xstate (s : State) (v : Word) : (s.setResult v).xstate = s.xstate := rfl
@[simp] theorem State.setResult_owner (s : State) (v : Word) : (s.setResult v).owner = s.owner := rfl
@[simp] theorem State.setResult_csN (s : State) (v : Word) : (s.setResult v).csN = s.csN := rfl
@[simp] theorem State.setResult_prevValid (s : State) (v : Word) : (s.setResult v).prevValid = s.prevValid := rfl
@[simp] theorem State.setResult_prevSeq (s : State) (v : Word) : (s.setResult v).prevSeq = s.prevSeq := rfl
@[simp] theorem State.setResult_errCount (s : State) (v : Word) : (s.setResult v).errCount = s.errCount := rfl
@[simp] theorem State.setResult_lastReason (s : State) (v : Word) : (s.setResult v).lastReason = s.lastReason := rfl
@[simp] theorem State.setResult_lastGap (s : State) (v : Word) : (s.setResult v).lastGap = s.lastGap := rfl
@[simp] theorem State.setResult_lastRetro (s : State) (v : Word) : (s.setResult v).lastRetro = s.lastRetro := rfl
@[simp] theorem State.setResult_lastDup (s : State) (v : Word) : (s.setResult v).lastDup = s.lastDup := rfl
@[simp] theorem State.setResult_cmdErr (s : State) (v : Word) : (s.setResult v).cmdErr = s.cmdErr := rfl
@[simp] theorem State.setResult_ownErr (s : State) (v : Word) : (s.setResult v).ownErr = s.ownErr := rfl
@[simp] theorem State.setResult_result (s : State) (v : Word) : (s.setResult v).result = v := rfl
@[simp] theorem State.setResult_len (s : State) (v : Word) : (s.setResult v).len = s.len := rfl
@[simp] theorem State.setResult_irqStatus (s : State) (v : Word) : (s.setResult v).irqStatus = s.irqStatus := rfl
@[simp] theorem State.setResult_irqEnable (s : State) (v : Word) : (s.setResult v).irqEnable = s.irqEnable := rfl
@[simp] theorem State.setResult_cfg (s : State) (v : Word) : (s.setResult v).cfg = s.cfg := rfl
@[simp] theorem State.setResult_inputs (s : State) (v : Word) : (s.setResult v).inputs = s.inputs := rfl
@[simp] theorem State.setResult_draws (s : State) (v : Word) : (s.setResult v).draws = s.draws := rfl
@[simp] theorem State.setResult_resp (s : State) (v : Word) : (s.setResult v).resp = s.resp := rfl
@[simp] theorem State.setResult_txFrames (s : State) (v : Word) : (s.setResult v).txFrames = s.txFrames := rfl

/-! ### State.setBuf -/

@[simp] theorem State.setBuf_buf (s : State) (m : Memory) : (s.setBuf m).buf = m := rfl
@[simp] theorem State.setBuf_dir (s : State) (m : Memory) : (s.setBuf m).dir = s.dir := rfl
@[simp] theorem State.setBuf_xstate (s : State) (m : Memory) : (s.setBuf m).xstate = s.xstate := rfl
@[simp] theorem State.setBuf_owner (s : State) (m : Memory) : (s.setBuf m).owner = s.owner := rfl
@[simp] theorem State.setBuf_csN (s : State) (m : Memory) : (s.setBuf m).csN = s.csN := rfl
@[simp] theorem State.setBuf_prevValid (s : State) (m : Memory) : (s.setBuf m).prevValid = s.prevValid := rfl
@[simp] theorem State.setBuf_prevSeq (s : State) (m : Memory) : (s.setBuf m).prevSeq = s.prevSeq := rfl
@[simp] theorem State.setBuf_errCount (s : State) (m : Memory) : (s.setBuf m).errCount = s.errCount := rfl
@[simp] theorem State.setBuf_lastReason (s : State) (m : Memory) : (s.setBuf m).lastReason = s.lastReason := rfl
@[simp] theorem State.setBuf_lastGap (s : State) (m : Memory) : (s.setBuf m).lastGap = s.lastGap := rfl
@[simp] theorem State.setBuf_lastRetro (s : State) (m : Memory) : (s.setBuf m).lastRetro = s.lastRetro := rfl
@[simp] theorem State.setBuf_lastDup (s : State) (m : Memory) : (s.setBuf m).lastDup = s.lastDup := rfl
@[simp] theorem State.setBuf_cmdErr (s : State) (m : Memory) : (s.setBuf m).cmdErr = s.cmdErr := rfl
@[simp] theorem State.setBuf_ownErr (s : State) (m : Memory) : (s.setBuf m).ownErr = s.ownErr := rfl
@[simp] theorem State.setBuf_result (s : State) (m : Memory) : (s.setBuf m).result = s.result := rfl
@[simp] theorem State.setBuf_len (s : State) (m : Memory) : (s.setBuf m).len = s.len := rfl
@[simp] theorem State.setBuf_irqStatus (s : State) (m : Memory) : (s.setBuf m).irqStatus = s.irqStatus := rfl
@[simp] theorem State.setBuf_irqEnable (s : State) (m : Memory) : (s.setBuf m).irqEnable = s.irqEnable := rfl
@[simp] theorem State.setBuf_cfg (s : State) (m : Memory) : (s.setBuf m).cfg = s.cfg := rfl
@[simp] theorem State.setBuf_inputs (s : State) (m : Memory) : (s.setBuf m).inputs = s.inputs := rfl
@[simp] theorem State.setBuf_draws (s : State) (m : Memory) : (s.setBuf m).draws = s.draws := rfl
@[simp] theorem State.setBuf_resp (s : State) (m : Memory) : (s.setBuf m).resp = s.resp := rfl
@[simp] theorem State.setBuf_txFrames (s : State) (m : Memory) : (s.setBuf m).txFrames = s.txFrames := rfl

/-! ### State.setPrev -/

@[simp] theorem State.setPrev_buf (s : State) (pv : Bool) (p : Word) : (s.setPrev pv p).buf = s.buf := rfl
@[simp] theorem State.setPrev_dir (s : State) (pv : Bool) (p : Word) : (s.setPrev pv p).dir = s.dir := rfl
@[simp] theorem State.setPrev_xstate (s : State) (pv : Bool) (p : Word) : (s.setPrev pv p).xstate = s.xstate := rfl
@[simp] theorem State.setPrev_owner (s : State) (pv : Bool) (p : Word) : (s.setPrev pv p).owner = s.owner := rfl
@[simp] theorem State.setPrev_csN (s : State) (pv : Bool) (p : Word) : (s.setPrev pv p).csN = s.csN := rfl
@[simp] theorem State.setPrev_prevValid (s : State) (pv : Bool) (p : Word) : (s.setPrev pv p).prevValid = pv := rfl
@[simp] theorem State.setPrev_prevSeq (s : State) (pv : Bool) (p : Word) : (s.setPrev pv p).prevSeq = p := rfl
@[simp] theorem State.setPrev_errCount (s : State) (pv : Bool) (p : Word) : (s.setPrev pv p).errCount = s.errCount := rfl
@[simp] theorem State.setPrev_lastReason (s : State) (pv : Bool) (p : Word) : (s.setPrev pv p).lastReason = s.lastReason := rfl
@[simp] theorem State.setPrev_lastGap (s : State) (pv : Bool) (p : Word) : (s.setPrev pv p).lastGap = s.lastGap := rfl
@[simp] theorem State.setPrev_lastRetro (s : State) (pv : Bool) (p : Word) : (s.setPrev pv p).lastRetro = s.lastRetro := rfl
@[simp] theorem State.setPrev_lastDup (s : State) (pv : Bool) (p : Word) : (s.setPrev pv p).lastDup = s.lastDup := rfl
@[simp] theorem State.setPrev_cmdErr (s : State) (pv : Bool) (p : Word) : (s.setPrev pv p).cmdErr = s.cmdErr := rfl
@[simp] theorem State.setPrev_ownErr (s : State) (pv : Bool) (p : Word) : (s.setPrev pv p).ownErr = s.ownErr := rfl
@[simp] theorem State.setPrev_result (s : State) (pv : Bool) (p : Word) : (s.setPrev pv p).result = s.result := rfl
@[simp] theorem State.setPrev_len (s : State) (pv : Bool) (p : Word) : (s.setPrev pv p).len = s.len := rfl
@[simp] theorem State.setPrev_irqStatus (s : State) (pv : Bool) (p : Word) : (s.setPrev pv p).irqStatus = s.irqStatus := rfl
@[simp] theorem State.setPrev_irqEnable (s : State) (pv : Bool) (p : Word) : (s.setPrev pv p).irqEnable = s.irqEnable := rfl
@[simp] theorem State.setPrev_cfg (s : State) (pv : Bool) (p : Word) : (s.setPrev pv p).cfg = s.cfg := rfl
@[simp] theorem State.setPrev_inputs (s : State) (pv : Bool) (p : Word) : (s.setPrev pv p).inputs = s.inputs := rfl
@[simp] theorem State.setPrev_draws (s : State) (pv : Bool) (p : Word) : (s.setPrev pv p).draws = s.draws := rfl
@[simp] theorem State.setPrev_resp (s : State) (pv : Bool) (p : Word) : (s.setPrev pv p).resp = s.resp := rfl
@[simp] theorem State.setPrev_txFrames (s : State) (pv : Bool) (p : Word) : (s.setPrev pv p).txFrames = s.txFrames := rfl

/-! ### State.setErrCount -/

@[simp] theorem State.setErrCount_buf (s : State) (v : Word) : (s.setErrCount v).buf = s.buf := rfl
@[simp] theorem State.setErrCount_dir (s : State) (v : Word) : (s.setErrCount v).dir = s.dir := rfl
@[simp] theorem State.setErrCount_xstate (s : State) (v : Word) : (s.setErrCount v).xstate = s.xstate := rfl
@[simp] theorem State.setErrCount_owner (s : State) (v : Word) : (s.setErrCount v).owner = s.owner := rfl
@[simp] theorem State.setErrCount_csN (s : State) (v : Word) : (s.setErrCount v).csN = s.csN := rfl
@[simp] theorem State.setErrCount_prevValid (s : State) (v : Word) : (s.setErrCount v).prevValid = s.prevValid := rfl
@[simp] theorem State.setErrCount_prevSeq (s : State) (v : Word) : (s.setErrCount v).prevSeq = s.prevSeq := rfl
@[simp] theorem State.setErrCount_errCount (s : State) (v : Word) : (s.setErrCount v).errCount = v := rfl
@[simp] theorem State.setErrCount_lastReason (s : State) (v : Word) : (s.setErrCount v).lastReason = s.lastReason := rfl
@[simp] theorem State.setErrCount_lastGap (s : State) (v : Word) : (s.setErrCount v).lastGap = s.lastGap := rfl
@[simp] theorem State.setErrCount_lastRetro (s : State) (v : Word) : (s.setErrCount v).lastRetro = s.lastRetro := rfl
@[simp] theorem State.setErrCount_lastDup (s : State) (v : Word) : (s.setErrCount v).lastDup = s.lastDup := rfl
@[simp] theorem State.setErrCount_cmdErr (s : State) (v : Word) : (s.setErrCount v).cmdErr = s.cmdErr := rfl
@[simp] theorem State.setErrCount_ownErr (s : State) (v : Word) : (s.setErrCount v).ownErr = s.ownErr := rfl
@[simp] theorem State.setErrCount_result (s : State) (v : Word) : (s.setErrCount v).result = s.result := rfl
@[simp] theorem State.setErrCount_len (s : State) (v : Word) : (s.setErrCount v).len = s.len := rfl
@[simp] theorem State.setErrCount_irqStatus (s : State) (v : Word) : (s.setErrCount v).irqStatus = s.irqStatus := rfl
@[simp] theorem State.setErrCount_irqEnable (s : State) (v : Word) : (s.setErrCount v).irqEnable = s.irqEnable := rfl
@[simp] theorem State.setErrCount_cfg (s : State) (v : Word) : (s.setErrCount v).cfg = s.cfg := rfl
@[simp] theorem State.setErrCount_inputs (s : State) (v : Word) : (s.setErrCount v).inputs = s.inputs := rfl
@[simp] theorem State.setErrCount_draws (s : State) (v : Word) : (s.setErrCount v).draws = s.draws := rfl
@[simp] theorem State.setErrCount_resp (s : State) (v : Word) : (s.setErrCount v).resp = s.resp := rfl
@[simp] theorem State.setErrCount_txFrames (s : State) (v : Word) : (s.setErrCount v).txFrames = s.txFrames := rfl

/-! ### State.setLast -/

@[simp] theorem State.setLast_buf (s : State) (r : Reason) (g t d : Bool) : (s.setLast r g t d).buf = s.buf := rfl
@[simp] theorem State.setLast_dir (s : State) (r : Reason) (g t d : Bool) : (s.setLast r g t d).dir = s.dir := rfl
@[simp] theorem State.setLast_xstate (s : State) (r : Reason) (g t d : Bool) : (s.setLast r g t d).xstate = s.xstate := rfl
@[simp] theorem State.setLast_owner (s : State) (r : Reason) (g t d : Bool) : (s.setLast r g t d).owner = s.owner := rfl
@[simp] theorem State.setLast_csN (s : State) (r : Reason) (g t d : Bool) : (s.setLast r g t d).csN = s.csN := rfl
@[simp] theorem State.setLast_prevValid (s : State) (r : Reason) (g t d : Bool) : (s.setLast r g t d).prevValid = s.prevValid := rfl
@[simp] theorem State.setLast_prevSeq (s : State) (r : Reason) (g t d : Bool) : (s.setLast r g t d).prevSeq = s.prevSeq := rfl
@[simp] theorem State.setLast_errCount (s : State) (r : Reason) (g t d : Bool) : (s.setLast r g t d).errCount = s.errCount := rfl
@[simp] theorem State.setLast_lastReason (s : State) (r : Reason) (g t d : Bool) : (s.setLast r g t d).lastReason = r := rfl
@[simp] theorem State.setLast_lastGap (s : State) (r : Reason) (g t d : Bool) : (s.setLast r g t d).lastGap = g := rfl
@[simp] theorem State.setLast_lastRetro (s : State) (r : Reason) (g t d : Bool) : (s.setLast r g t d).lastRetro = t := rfl
@[simp] theorem State.setLast_lastDup (s : State) (r : Reason) (g t d : Bool) : (s.setLast r g t d).lastDup = d := rfl
@[simp] theorem State.setLast_cmdErr (s : State) (r : Reason) (g t d : Bool) : (s.setLast r g t d).cmdErr = s.cmdErr := rfl
@[simp] theorem State.setLast_ownErr (s : State) (r : Reason) (g t d : Bool) : (s.setLast r g t d).ownErr = s.ownErr := rfl
@[simp] theorem State.setLast_result (s : State) (r : Reason) (g t d : Bool) : (s.setLast r g t d).result = s.result := rfl
@[simp] theorem State.setLast_len (s : State) (r : Reason) (g t d : Bool) : (s.setLast r g t d).len = s.len := rfl
@[simp] theorem State.setLast_irqStatus (s : State) (r : Reason) (g t d : Bool) : (s.setLast r g t d).irqStatus = s.irqStatus := rfl
@[simp] theorem State.setLast_irqEnable (s : State) (r : Reason) (g t d : Bool) : (s.setLast r g t d).irqEnable = s.irqEnable := rfl
@[simp] theorem State.setLast_cfg (s : State) (r : Reason) (g t d : Bool) : (s.setLast r g t d).cfg = s.cfg := rfl
@[simp] theorem State.setLast_inputs (s : State) (r : Reason) (g t d : Bool) : (s.setLast r g t d).inputs = s.inputs := rfl
@[simp] theorem State.setLast_draws (s : State) (r : Reason) (g t d : Bool) : (s.setLast r g t d).draws = s.draws := rfl
@[simp] theorem State.setLast_resp (s : State) (r : Reason) (g t d : Bool) : (s.setLast r g t d).resp = s.resp := rfl
@[simp] theorem State.setLast_txFrames (s : State) (r : Reason) (g t d : Bool) : (s.setLast r g t d).txFrames = s.txFrames := rfl

/-! ### State.setBundle -/

@[simp] theorem State.setBundle_buf (s : State) (x : XState) (o : Owner) (cs : Bool) : (s.setBundle x o cs).buf = s.buf := rfl
@[simp] theorem State.setBundle_dir (s : State) (x : XState) (o : Owner) (cs : Bool) : (s.setBundle x o cs).dir = s.dir := rfl
@[simp] theorem State.setBundle_xstate (s : State) (x : XState) (o : Owner) (cs : Bool) : (s.setBundle x o cs).xstate = x := rfl
@[simp] theorem State.setBundle_owner (s : State) (x : XState) (o : Owner) (cs : Bool) : (s.setBundle x o cs).owner = o := rfl
@[simp] theorem State.setBundle_csN (s : State) (x : XState) (o : Owner) (cs : Bool) : (s.setBundle x o cs).csN = cs := rfl
@[simp] theorem State.setBundle_prevValid (s : State) (x : XState) (o : Owner) (cs : Bool) : (s.setBundle x o cs).prevValid = s.prevValid := rfl
@[simp] theorem State.setBundle_prevSeq (s : State) (x : XState) (o : Owner) (cs : Bool) : (s.setBundle x o cs).prevSeq = s.prevSeq := rfl
@[simp] theorem State.setBundle_errCount (s : State) (x : XState) (o : Owner) (cs : Bool) : (s.setBundle x o cs).errCount = s.errCount := rfl
@[simp] theorem State.setBundle_lastReason (s : State) (x : XState) (o : Owner) (cs : Bool) : (s.setBundle x o cs).lastReason = s.lastReason := rfl
@[simp] theorem State.setBundle_lastGap (s : State) (x : XState) (o : Owner) (cs : Bool) : (s.setBundle x o cs).lastGap = s.lastGap := rfl
@[simp] theorem State.setBundle_lastRetro (s : State) (x : XState) (o : Owner) (cs : Bool) : (s.setBundle x o cs).lastRetro = s.lastRetro := rfl
@[simp] theorem State.setBundle_lastDup (s : State) (x : XState) (o : Owner) (cs : Bool) : (s.setBundle x o cs).lastDup = s.lastDup := rfl
@[simp] theorem State.setBundle_cmdErr (s : State) (x : XState) (o : Owner) (cs : Bool) : (s.setBundle x o cs).cmdErr = s.cmdErr := rfl
@[simp] theorem State.setBundle_ownErr (s : State) (x : XState) (o : Owner) (cs : Bool) : (s.setBundle x o cs).ownErr = s.ownErr := rfl
@[simp] theorem State.setBundle_result (s : State) (x : XState) (o : Owner) (cs : Bool) : (s.setBundle x o cs).result = s.result := rfl
@[simp] theorem State.setBundle_len (s : State) (x : XState) (o : Owner) (cs : Bool) : (s.setBundle x o cs).len = s.len := rfl
@[simp] theorem State.setBundle_irqStatus (s : State) (x : XState) (o : Owner) (cs : Bool) : (s.setBundle x o cs).irqStatus = s.irqStatus := rfl
@[simp] theorem State.setBundle_irqEnable (s : State) (x : XState) (o : Owner) (cs : Bool) : (s.setBundle x o cs).irqEnable = s.irqEnable := rfl
@[simp] theorem State.setBundle_cfg (s : State) (x : XState) (o : Owner) (cs : Bool) : (s.setBundle x o cs).cfg = s.cfg := rfl
@[simp] theorem State.setBundle_inputs (s : State) (x : XState) (o : Owner) (cs : Bool) : (s.setBundle x o cs).inputs = s.inputs := rfl
@[simp] theorem State.setBundle_draws (s : State) (x : XState) (o : Owner) (cs : Bool) : (s.setBundle x o cs).draws = s.draws := rfl
@[simp] theorem State.setBundle_resp (s : State) (x : XState) (o : Owner) (cs : Bool) : (s.setBundle x o cs).resp = s.resp := rfl
@[simp] theorem State.setBundle_txFrames (s : State) (x : XState) (o : Owner) (cs : Bool) : (s.setBundle x o cs).txFrames = s.txFrames := rfl

/-! ### State.setXState -/

@[simp] theorem State.setXState_buf (s : State) (x : XState) : (s.setXState x).buf = s.buf := rfl
@[simp] theorem State.setXState_dir (s : State) (x : XState) : (s.setXState x).dir = s.dir := rfl
@[simp] theorem State.setXState_xstate (s : State) (x : XState) : (s.setXState x).xstate = x := rfl
@[simp] theorem State.setXState_owner (s : State) (x : XState) : (s.setXState x).owner = s.owner := rfl
@[simp] theorem State.setXState_csN (s : State) (x : XState) : (s.setXState x).csN = s.csN := rfl
@[simp] theorem State.setXState_prevValid (s : State) (x : XState) : (s.setXState x).prevValid = s.prevValid := rfl
@[simp] theorem State.setXState_prevSeq (s : State) (x : XState) : (s.setXState x).prevSeq = s.prevSeq := rfl
@[simp] theorem State.setXState_errCount (s : State) (x : XState) : (s.setXState x).errCount = s.errCount := rfl
@[simp] theorem State.setXState_lastReason (s : State) (x : XState) : (s.setXState x).lastReason = s.lastReason := rfl
@[simp] theorem State.setXState_lastGap (s : State) (x : XState) : (s.setXState x).lastGap = s.lastGap := rfl
@[simp] theorem State.setXState_lastRetro (s : State) (x : XState) : (s.setXState x).lastRetro = s.lastRetro := rfl
@[simp] theorem State.setXState_lastDup (s : State) (x : XState) : (s.setXState x).lastDup = s.lastDup := rfl
@[simp] theorem State.setXState_cmdErr (s : State) (x : XState) : (s.setXState x).cmdErr = s.cmdErr := rfl
@[simp] theorem State.setXState_ownErr (s : State) (x : XState) : (s.setXState x).ownErr = s.ownErr := rfl
@[simp] theorem State.setXState_result (s : State) (x : XState) : (s.setXState x).result = s.result := rfl
@[simp] theorem State.setXState_len (s : State) (x : XState) : (s.setXState x).len = s.len := rfl
@[simp] theorem State.setXState_irqStatus (s : State) (x : XState) : (s.setXState x).irqStatus = s.irqStatus := rfl
@[simp] theorem State.setXState_irqEnable (s : State) (x : XState) : (s.setXState x).irqEnable = s.irqEnable := rfl
@[simp] theorem State.setXState_cfg (s : State) (x : XState) : (s.setXState x).cfg = s.cfg := rfl
@[simp] theorem State.setXState_inputs (s : State) (x : XState) : (s.setXState x).inputs = s.inputs := rfl
@[simp] theorem State.setXState_draws (s : State) (x : XState) : (s.setXState x).draws = s.draws := rfl
@[simp] theorem State.setXState_resp (s : State) (x : XState) : (s.setXState x).resp = s.resp := rfl
@[simp] theorem State.setXState_txFrames (s : State) (x : XState) : (s.setXState x).txFrames = s.txFrames := rfl

/-! ### State.raiseIrq -/

@[simp] theorem State.raiseIrq_buf (s : State) (b : BitVec 2) : (s.raiseIrq b).buf = s.buf := rfl
@[simp] theorem State.raiseIrq_dir (s : State) (b : BitVec 2) : (s.raiseIrq b).dir = s.dir := rfl
@[simp] theorem State.raiseIrq_xstate (s : State) (b : BitVec 2) : (s.raiseIrq b).xstate = s.xstate := rfl
@[simp] theorem State.raiseIrq_owner (s : State) (b : BitVec 2) : (s.raiseIrq b).owner = s.owner := rfl
@[simp] theorem State.raiseIrq_csN (s : State) (b : BitVec 2) : (s.raiseIrq b).csN = s.csN := rfl
@[simp] theorem State.raiseIrq_prevValid (s : State) (b : BitVec 2) : (s.raiseIrq b).prevValid = s.prevValid := rfl
@[simp] theorem State.raiseIrq_prevSeq (s : State) (b : BitVec 2) : (s.raiseIrq b).prevSeq = s.prevSeq := rfl
@[simp] theorem State.raiseIrq_errCount (s : State) (b : BitVec 2) : (s.raiseIrq b).errCount = s.errCount := rfl
@[simp] theorem State.raiseIrq_lastReason (s : State) (b : BitVec 2) : (s.raiseIrq b).lastReason = s.lastReason := rfl
@[simp] theorem State.raiseIrq_lastGap (s : State) (b : BitVec 2) : (s.raiseIrq b).lastGap = s.lastGap := rfl
@[simp] theorem State.raiseIrq_lastRetro (s : State) (b : BitVec 2) : (s.raiseIrq b).lastRetro = s.lastRetro := rfl
@[simp] theorem State.raiseIrq_lastDup (s : State) (b : BitVec 2) : (s.raiseIrq b).lastDup = s.lastDup := rfl
@[simp] theorem State.raiseIrq_cmdErr (s : State) (b : BitVec 2) : (s.raiseIrq b).cmdErr = s.cmdErr := rfl
@[simp] theorem State.raiseIrq_ownErr (s : State) (b : BitVec 2) : (s.raiseIrq b).ownErr = s.ownErr := rfl
@[simp] theorem State.raiseIrq_result (s : State) (b : BitVec 2) : (s.raiseIrq b).result = s.result := rfl
@[simp] theorem State.raiseIrq_len (s : State) (b : BitVec 2) : (s.raiseIrq b).len = s.len := rfl
@[simp] theorem State.raiseIrq_irqStatus (s : State) (b : BitVec 2) : (s.raiseIrq b).irqStatus = s.irqStatus ||| b := rfl
@[simp] theorem State.raiseIrq_irqEnable (s : State) (b : BitVec 2) : (s.raiseIrq b).irqEnable = s.irqEnable := rfl
@[simp] theorem State.raiseIrq_cfg (s : State) (b : BitVec 2) : (s.raiseIrq b).cfg = s.cfg := rfl
@[simp] theorem State.raiseIrq_inputs (s : State) (b : BitVec 2) : (s.raiseIrq b).inputs = s.inputs := rfl
@[simp] theorem State.raiseIrq_draws (s : State) (b : BitVec 2) : (s.raiseIrq b).draws = s.draws := rfl
@[simp] theorem State.raiseIrq_resp (s : State) (b : BitVec 2) : (s.raiseIrq b).resp = s.resp := rfl
@[simp] theorem State.raiseIrq_txFrames (s : State) (b : BitVec 2) : (s.raiseIrq b).txFrames = s.txFrames := rfl

/-! ### State.busError -/

@[simp] theorem State.busError_buf (s : State) (off : Offset) : (s.busError off).buf = s.buf := rfl
@[simp] theorem State.busError_dir (s : State) (off : Offset) : (s.busError off).dir = s.dir := rfl
@[simp] theorem State.busError_xstate (s : State) (off : Offset) : (s.busError off).xstate = s.xstate := rfl
@[simp] theorem State.busError_owner (s : State) (off : Offset) : (s.busError off).owner = s.owner := rfl
@[simp] theorem State.busError_csN (s : State) (off : Offset) : (s.busError off).csN = s.csN := rfl
@[simp] theorem State.busError_prevValid (s : State) (off : Offset) : (s.busError off).prevValid = s.prevValid := rfl
@[simp] theorem State.busError_prevSeq (s : State) (off : Offset) : (s.busError off).prevSeq = s.prevSeq := rfl
@[simp] theorem State.busError_errCount (s : State) (off : Offset) : (s.busError off).errCount = s.errCount := rfl
@[simp] theorem State.busError_lastReason (s : State) (off : Offset) : (s.busError off).lastReason = s.lastReason := rfl
@[simp] theorem State.busError_lastGap (s : State) (off : Offset) : (s.busError off).lastGap = s.lastGap := rfl
@[simp] theorem State.busError_lastRetro (s : State) (off : Offset) : (s.busError off).lastRetro = s.lastRetro := rfl
@[simp] theorem State.busError_lastDup (s : State) (off : Offset) : (s.busError off).lastDup = s.lastDup := rfl
@[simp] theorem State.busError_cmdErr (s : State) (off : Offset) : (s.busError off).cmdErr = s.cmdErr := rfl
@[simp] theorem State.busError_ownErr (s : State) (off : Offset) : (s.busError off).ownErr = (s.ownErr || (inWindow s.cfg off && s.owner == .dma)) := rfl
@[simp] theorem State.busError_result (s : State) (off : Offset) : (s.busError off).result = s.result := rfl
@[simp] theorem State.busError_len (s : State) (off : Offset) : (s.busError off).len = s.len := rfl
@[simp] theorem State.busError_irqStatus (s : State) (off : Offset) : (s.busError off).irqStatus = s.irqStatus := rfl
@[simp] theorem State.busError_irqEnable (s : State) (off : Offset) : (s.busError off).irqEnable = s.irqEnable := rfl
@[simp] theorem State.busError_cfg (s : State) (off : Offset) : (s.busError off).cfg = s.cfg := rfl
@[simp] theorem State.busError_inputs (s : State) (off : Offset) : (s.busError off).inputs = s.inputs := rfl
@[simp] theorem State.busError_draws (s : State) (off : Offset) : (s.busError off).draws = s.draws := rfl
@[simp] theorem State.busError_resp (s : State) (off : Offset) : (s.busError off).resp = .busError := rfl
@[simp] theorem State.busError_txFrames (s : State) (off : Offset) : (s.busError off).txFrames = s.txFrames := rfl

/-! ### State.cmdError -/

@[simp] theorem State.cmdError_buf (s : State) (e : CmdErr) : (s.cmdError e).buf = s.buf := rfl
@[simp] theorem State.cmdError_dir (s : State) (e : CmdErr) : (s.cmdError e).dir = s.dir := rfl
@[simp] theorem State.cmdError_xstate (s : State) (e : CmdErr) : (s.cmdError e).xstate = s.xstate := rfl
@[simp] theorem State.cmdError_owner (s : State) (e : CmdErr) : (s.cmdError e).owner = s.owner := rfl
@[simp] theorem State.cmdError_csN (s : State) (e : CmdErr) : (s.cmdError e).csN = s.csN := rfl
@[simp] theorem State.cmdError_prevValid (s : State) (e : CmdErr) : (s.cmdError e).prevValid = s.prevValid := rfl
@[simp] theorem State.cmdError_prevSeq (s : State) (e : CmdErr) : (s.cmdError e).prevSeq = s.prevSeq := rfl
@[simp] theorem State.cmdError_errCount (s : State) (e : CmdErr) : (s.cmdError e).errCount = s.errCount := rfl
@[simp] theorem State.cmdError_lastReason (s : State) (e : CmdErr) : (s.cmdError e).lastReason = s.lastReason := rfl
@[simp] theorem State.cmdError_lastGap (s : State) (e : CmdErr) : (s.cmdError e).lastGap = s.lastGap := rfl
@[simp] theorem State.cmdError_lastRetro (s : State) (e : CmdErr) : (s.cmdError e).lastRetro = s.lastRetro := rfl
@[simp] theorem State.cmdError_lastDup (s : State) (e : CmdErr) : (s.cmdError e).lastDup = s.lastDup := rfl
@[simp] theorem State.cmdError_cmdErr (s : State) (e : CmdErr) : (s.cmdError e).cmdErr = e := rfl
@[simp] theorem State.cmdError_ownErr (s : State) (e : CmdErr) : (s.cmdError e).ownErr = s.ownErr := rfl
@[simp] theorem State.cmdError_result (s : State) (e : CmdErr) : (s.cmdError e).result = s.result := rfl
@[simp] theorem State.cmdError_len (s : State) (e : CmdErr) : (s.cmdError e).len = s.len := rfl
@[simp] theorem State.cmdError_irqStatus (s : State) (e : CmdErr) : (s.cmdError e).irqStatus = s.irqStatus := rfl
@[simp] theorem State.cmdError_irqEnable (s : State) (e : CmdErr) : (s.cmdError e).irqEnable = s.irqEnable := rfl
@[simp] theorem State.cmdError_cfg (s : State) (e : CmdErr) : (s.cmdError e).cfg = s.cfg := rfl
@[simp] theorem State.cmdError_inputs (s : State) (e : CmdErr) : (s.cmdError e).inputs = s.inputs := rfl
@[simp] theorem State.cmdError_draws (s : State) (e : CmdErr) : (s.cmdError e).draws = s.draws := rfl
@[simp] theorem State.cmdError_resp (s : State) (e : CmdErr) : (s.cmdError e).resp = .accepted := rfl
@[simp] theorem State.cmdError_txFrames (s : State) (e : CmdErr) : (s.cmdError e).txFrames = s.txFrames := rfl

/-! ### State.setOutcome -/

@[simp] theorem State.setOutcome_buf (s : State) (r : Reason) (q : Word) : (s.setOutcome r q).buf = s.buf := rfl
@[simp] theorem State.setOutcome_dir (s : State) (r : Reason) (q : Word) : (s.setOutcome r q).dir = s.dir := rfl
@[simp] theorem State.setOutcome_xstate (s : State) (r : Reason) (q : Word) : (s.setOutcome r q).xstate = s.xstate := rfl
@[simp] theorem State.setOutcome_owner (s : State) (r : Reason) (q : Word) : (s.setOutcome r q).owner = s.owner := rfl
@[simp] theorem State.setOutcome_csN (s : State) (r : Reason) (q : Word) : (s.setOutcome r q).csN = s.csN := rfl
@[simp] theorem State.setOutcome_prevValid (s : State) (r : Reason) (q : Word) : (s.setOutcome r q).prevValid = s.prevValid := rfl
@[simp] theorem State.setOutcome_prevSeq (s : State) (r : Reason) (q : Word) : (s.setOutcome r q).prevSeq = s.prevSeq := rfl
@[simp] theorem State.setOutcome_errCount (s : State) (r : Reason) (q : Word) : (s.setOutcome r q).errCount = s.errCount := rfl
@[simp] theorem State.setOutcome_lastReason (s : State) (r : Reason) (q : Word) : (s.setOutcome r q).lastReason = r := rfl
@[simp] theorem State.setOutcome_lastGap (s : State) (r : Reason) (q : Word) : (s.setOutcome r q).lastGap = gapFlag r q s.prevValid s.prevSeq := rfl
@[simp] theorem State.setOutcome_lastRetro (s : State) (r : Reason) (q : Word) : (s.setOutcome r q).lastRetro = retroFlag r q s.prevSeq := rfl
@[simp] theorem State.setOutcome_lastDup (s : State) (r : Reason) (q : Word) : (s.setOutcome r q).lastDup = dupFlag r q s.prevSeq := rfl
@[simp] theorem State.setOutcome_cmdErr (s : State) (r : Reason) (q : Word) : (s.setOutcome r q).cmdErr = s.cmdErr := rfl
@[simp] theorem State.setOutcome_ownErr (s : State) (r : Reason) (q : Word) : (s.setOutcome r q).ownErr = s.ownErr := rfl
@[simp] theorem State.setOutcome_result (s : State) (r : Reason) (q : Word) : (s.setOutcome r q).result = q := rfl
@[simp] theorem State.setOutcome_len (s : State) (r : Reason) (q : Word) : (s.setOutcome r q).len = s.len := rfl
@[simp] theorem State.setOutcome_irqStatus (s : State) (r : Reason) (q : Word) : (s.setOutcome r q).irqStatus = s.irqStatus := rfl
@[simp] theorem State.setOutcome_irqEnable (s : State) (r : Reason) (q : Word) : (s.setOutcome r q).irqEnable = s.irqEnable := rfl
@[simp] theorem State.setOutcome_cfg (s : State) (r : Reason) (q : Word) : (s.setOutcome r q).cfg = s.cfg := rfl
@[simp] theorem State.setOutcome_inputs (s : State) (r : Reason) (q : Word) : (s.setOutcome r q).inputs = s.inputs := rfl
@[simp] theorem State.setOutcome_draws (s : State) (r : Reason) (q : Word) : (s.setOutcome r q).draws = s.draws := rfl
@[simp] theorem State.setOutcome_resp (s : State) (r : Reason) (q : Word) : (s.setOutcome r q).resp = s.resp := rfl
@[simp] theorem State.setOutcome_txFrames (s : State) (r : Reason) (q : Word) : (s.setOutcome r q).txFrames = s.txFrames := rfl

/-! ### State.rst -/

@[simp] theorem State.rst_buf (s : State) : s.rst.buf = [] := rfl
@[simp] theorem State.rst_dir (s : State) : s.rst.dir = .transmit := rfl
@[simp] theorem State.rst_xstate (s : State) : s.rst.xstate = .idle := rfl
@[simp] theorem State.rst_owner (s : State) : s.rst.owner = .cpu := rfl
@[simp] theorem State.rst_csN (s : State) : s.rst.csN = true := rfl
@[simp] theorem State.rst_prevValid (s : State) : s.rst.prevValid = false := rfl
@[simp] theorem State.rst_prevSeq (s : State) : s.rst.prevSeq = 0 := rfl
@[simp] theorem State.rst_errCount (s : State) : s.rst.errCount = 0 := rfl
@[simp] theorem State.rst_lastReason (s : State) : s.rst.lastReason = .none := rfl
@[simp] theorem State.rst_lastGap (s : State) : s.rst.lastGap = false := rfl
@[simp] theorem State.rst_lastRetro (s : State) : s.rst.lastRetro = false := rfl
@[simp] theorem State.rst_lastDup (s : State) : s.rst.lastDup = false := rfl
@[simp] theorem State.rst_cmdErr (s : State) : s.rst.cmdErr = .none := rfl
@[simp] theorem State.rst_ownErr (s : State) : s.rst.ownErr = false := rfl
@[simp] theorem State.rst_result (s : State) : s.rst.result = 0 := rfl
@[simp] theorem State.rst_len (s : State) : s.rst.len = BitVec.ofNat 16 s.cfg.n := rfl
@[simp] theorem State.rst_irqStatus (s : State) : s.rst.irqStatus = 0 := rfl
@[simp] theorem State.rst_irqEnable (s : State) : s.rst.irqEnable = 0 := rfl
@[simp] theorem State.rst_cfg (s : State) : s.rst.cfg = s.cfg := rfl
@[simp] theorem State.rst_inputs (s : State) : s.rst.inputs = s.inputs := rfl
@[simp] theorem State.rst_draws (s : State) : s.rst.draws = s.draws := rfl
@[simp] theorem State.rst_resp (s : State) : s.rst.resp = s.resp := rfl
@[simp] theorem State.rst_txFrames (s : State) : s.rst.txFrames = s.txFrames := rfl

/-! ### State.track leaves all but the tracker alone -/

@[simp] theorem State.track_buf (s : State) (r : Reason) (q : Word) : (s.track r q).buf = s.buf := by
  unfold State.track; repeat' split
  all_goals rfl
@[simp] theorem State.track_dir (s : State) (r : Reason) (q : Word) : (s.track r q).dir = s.dir := by
  unfold State.track; repeat' split
  all_goals rfl
@[simp] theorem State.track_xstate (s : State) (r : Reason) (q : Word) : (s.track r q).xstate = s.xstate := by
  unfold State.track; repeat' split
  all_goals rfl
@[simp] theorem State.track_owner (s : State) (r : Reason) (q : Word) : (s.track r q).owner = s.owner := by
  unfold State.track; repeat' split
  all_goals rfl
@[simp] theorem State.track_csN (s : State) (r : Reason) (q : Word) : (s.track r q).csN = s.csN := by
  unfold State.track; repeat' split
  all_goals rfl
@[simp] theorem State.track_lastReason (s : State) (r : Reason) (q : Word) : (s.track r q).lastReason = s.lastReason := by
  unfold State.track; repeat' split
  all_goals rfl
@[simp] theorem State.track_lastGap (s : State) (r : Reason) (q : Word) : (s.track r q).lastGap = s.lastGap := by
  unfold State.track; repeat' split
  all_goals rfl
@[simp] theorem State.track_lastRetro (s : State) (r : Reason) (q : Word) : (s.track r q).lastRetro = s.lastRetro := by
  unfold State.track; repeat' split
  all_goals rfl
@[simp] theorem State.track_lastDup (s : State) (r : Reason) (q : Word) : (s.track r q).lastDup = s.lastDup := by
  unfold State.track; repeat' split
  all_goals rfl
@[simp] theorem State.track_cmdErr (s : State) (r : Reason) (q : Word) : (s.track r q).cmdErr = s.cmdErr := by
  unfold State.track; repeat' split
  all_goals rfl
@[simp] theorem State.track_ownErr (s : State) (r : Reason) (q : Word) : (s.track r q).ownErr = s.ownErr := by
  unfold State.track; repeat' split
  all_goals rfl
@[simp] theorem State.track_result (s : State) (r : Reason) (q : Word) : (s.track r q).result = s.result := by
  unfold State.track; repeat' split
  all_goals rfl
@[simp] theorem State.track_len (s : State) (r : Reason) (q : Word) : (s.track r q).len = s.len := by
  unfold State.track; repeat' split
  all_goals rfl
@[simp] theorem State.track_irqStatus (s : State) (r : Reason) (q : Word) : (s.track r q).irqStatus = s.irqStatus := by
  unfold State.track; repeat' split
  all_goals rfl
@[simp] theorem State.track_irqEnable (s : State) (r : Reason) (q : Word) : (s.track r q).irqEnable = s.irqEnable := by
  unfold State.track; repeat' split
  all_goals rfl
@[simp] theorem State.track_cfg (s : State) (r : Reason) (q : Word) : (s.track r q).cfg = s.cfg := by
  unfold State.track; repeat' split
  all_goals rfl
@[simp] theorem State.track_inputs (s : State) (r : Reason) (q : Word) : (s.track r q).inputs = s.inputs := by
  unfold State.track; repeat' split
  all_goals rfl
@[simp] theorem State.track_draws (s : State) (r : Reason) (q : Word) : (s.track r q).draws = s.draws := by
  unfold State.track; repeat' split
  all_goals rfl
@[simp] theorem State.track_resp (s : State) (r : Reason) (q : Word) : (s.track r q).resp = s.resp := by
  unfold State.track; repeat' split
  all_goals rfl
@[simp] theorem State.track_txFrames (s : State) (r : Reason) (q : Word) : (s.track r q).txFrames = s.txFrames := by
  unfold State.track; repeat' split
  all_goals rfl

/-! ### State.enterFatal -/

@[simp] theorem State.enterFatal_buf (s : State) : s.enterFatal.buf = if s.dir = .receive then [] else s.buf := by
  unfold State.enterFatal; by_cases h : s.dir = .receive <;> simp [h]
@[simp] theorem State.enterFatal_dir (s : State) : s.enterFatal.dir = s.dir := by
  unfold State.enterFatal; by_cases h : s.dir = .receive <;> simp [h]
@[simp] theorem State.enterFatal_xstate (s : State) : s.enterFatal.xstate = .fatal := by
  unfold State.enterFatal; by_cases h : s.dir = .receive <;> simp [h]
@[simp] theorem State.enterFatal_owner (s : State) : s.enterFatal.owner = s.owner := by
  unfold State.enterFatal; by_cases h : s.dir = .receive <;> simp [h]
@[simp] theorem State.enterFatal_csN (s : State) : s.enterFatal.csN = s.csN := by
  unfold State.enterFatal; by_cases h : s.dir = .receive <;> simp [h]
@[simp] theorem State.enterFatal_prevValid (s : State) : s.enterFatal.prevValid = s.prevValid := by
  unfold State.enterFatal; by_cases h : s.dir = .receive <;> simp [h]
@[simp] theorem State.enterFatal_prevSeq (s : State) : s.enterFatal.prevSeq = s.prevSeq := by
  unfold State.enterFatal; by_cases h : s.dir = .receive <;> simp [h]
@[simp] theorem State.enterFatal_errCount (s : State) : s.enterFatal.errCount = s.errCount := by
  unfold State.enterFatal; by_cases h : s.dir = .receive <;> simp [h]
@[simp] theorem State.enterFatal_lastReason (s : State) : s.enterFatal.lastReason = s.lastReason := by
  unfold State.enterFatal; by_cases h : s.dir = .receive <;> simp [h]
@[simp] theorem State.enterFatal_lastGap (s : State) : s.enterFatal.lastGap = s.lastGap := by
  unfold State.enterFatal; by_cases h : s.dir = .receive <;> simp [h]
@[simp] theorem State.enterFatal_lastRetro (s : State) : s.enterFatal.lastRetro = s.lastRetro := by
  unfold State.enterFatal; by_cases h : s.dir = .receive <;> simp [h]
@[simp] theorem State.enterFatal_lastDup (s : State) : s.enterFatal.lastDup = s.lastDup := by
  unfold State.enterFatal; by_cases h : s.dir = .receive <;> simp [h]
@[simp] theorem State.enterFatal_cmdErr (s : State) : s.enterFatal.cmdErr = s.cmdErr := by
  unfold State.enterFatal; by_cases h : s.dir = .receive <;> simp [h]
@[simp] theorem State.enterFatal_ownErr (s : State) : s.enterFatal.ownErr = s.ownErr := by
  unfold State.enterFatal; by_cases h : s.dir = .receive <;> simp [h]
@[simp] theorem State.enterFatal_result (s : State) : s.enterFatal.result = s.result := by
  unfold State.enterFatal; by_cases h : s.dir = .receive <;> simp [h]
@[simp] theorem State.enterFatal_len (s : State) : s.enterFatal.len = s.len := by
  unfold State.enterFatal; by_cases h : s.dir = .receive <;> simp [h]
@[simp] theorem State.enterFatal_irqStatus (s : State) : s.enterFatal.irqStatus = s.irqStatus ||| 0b10 := by
  unfold State.enterFatal; by_cases h : s.dir = .receive <;> simp [h]
@[simp] theorem State.enterFatal_irqEnable (s : State) : s.enterFatal.irqEnable = s.irqEnable := by
  unfold State.enterFatal; by_cases h : s.dir = .receive <;> simp [h]
@[simp] theorem State.enterFatal_cfg (s : State) : s.enterFatal.cfg = s.cfg := by
  unfold State.enterFatal; by_cases h : s.dir = .receive <;> simp [h]
@[simp] theorem State.enterFatal_inputs (s : State) : s.enterFatal.inputs = s.inputs := by
  unfold State.enterFatal; by_cases h : s.dir = .receive <;> simp [h]
@[simp] theorem State.enterFatal_draws (s : State) : s.enterFatal.draws = s.draws := by
  unfold State.enterFatal; by_cases h : s.dir = .receive <;> simp [h]
@[simp] theorem State.enterFatal_resp (s : State) : s.enterFatal.resp = s.resp := by
  unfold State.enterFatal; by_cases h : s.dir = .receive <;> simp [h]
@[simp] theorem State.enterFatal_txFrames (s : State) : s.enterFatal.txFrames = s.txFrames := by
  unfold State.enterFatal; by_cases h : s.dir = .receive <;> simp [h]

end Sys2Proof.Machine
end

