-- ==== Sys2Proof/Laws/Ops.lean ====
section
/-! SUPPORT. One lemma per shared operation that says once all it can do: the gate, the buffer reads, the buffer
access, the length check, the outcome of Validate, and, from them, each instruction's next states. -/

namespace Sys2Proof.Machine

/-! ## Reading the buffer -/

theorem holds_iff {s : State} {i n : Nat} {bs : List Byte} : Holds s i n bs ↔ Memory.getBytes s.buf i n = some bs :=
  Memory.getBytes_eq_some.symm

theorem hasUnwritten_iff {s : State} {i n : Nat} : HasUnwritten s i n ↔ Memory.getBytes s.buf i n = none :=
  Memory.getBytes_eq_none.symm

theorem withBytes_of_holds {s : State} {i n : Nat} {bs : List Byte} (h : Holds s i n bs) (k : List Byte → Result) :
    withBytes s i n k = k bs := by rw [withBytes, holds_iff.mp h]

theorem withBytes_of_unwritten {s : State} {i n : Nat} (h : HasUnwritten s i n) (k : List Byte → Result) :
    withBytes s i n k = .fault .unwrittenByte := by rw [withBytes, hasUnwritten_iff.mp h]

/-- withBytes goes on with the bytes the cells hold, or stops. -/
theorem withBytes_next {s t : State} {i n : Nat} {k : List Byte → Result} (h : withBytes s i n k = .next t) :
    ∃ bs, Holds s i n bs ∧ k bs = .next t := by
  unfold withBytes at h
  split at h
  · exact ⟨_, holds_iff.mpr ‹_›, h⟩
  · cases h

/-! ## The gate (R273) -/

/-- The gate's error: FATAL, or BUSY for a command that needs the bundle. -/
theorem gateError_some {nb : Bool} {s : State} {e : CmdErr} (h : gateError nb s = some e) :
    (s.xstate = .fatal ∧ e = .fatal) ∨ (s.xstate ≠ .fatal ∧ nb = true ∧ s.owner = .dma ∧ e = .busy) := by
  unfold gateError at h
  split at h
  · cases h; exact .inl ⟨‹_›, rfl⟩
  · split at h
    · rename_i hb
      cases h
      simp only [Bool.and_eq_true, beq_iff_eq] at hb
      exact .inr ⟨‹_›, hb.1, hb.2, rfl⟩
    · cases h

/-- An error of the gate is the command's error: opcodes 1 to 6 need the bundle, 7 and 8 do not. -/
theorem commandError_of_gate {nb : Bool} {s : State} {e : CmdErr} {w : Word} (hw : 1 ≤ w.toNat ∧ w.toNat ≤ 8)
    (hb : nb = true → w.toNat ≤ 6) (h : gateError nb s = some e) : CommandErrorOf s (.bus (Access.command w)) e := by
  rcases gateError_some h with ⟨hx, rfl⟩ | ⟨hx, hn, ho, rfl⟩
  · exact .fatal w hw hx
  · exact .busy w ⟨hw.1, hb hn⟩ hx ho

theorem gateError_none {nb : Bool} {s : State} :
    gateError nb s = none ↔ s.xstate ≠ .fatal ∧ (nb = true → s.owner = .cpu) := by
  unfold gateError
  cases nb <;> cases s.xstate <;> cases s.owner <;> simp

theorem gate_fatal {nb : Bool} {s : State} {k : State → Result} (h : s.xstate = .fatal) :
    gate nb s k = .next (s.cmdError .fatal) := by simp [gate, gateError, h]

theorem gate_busy {s : State} {k : State → Result} (h : s.xstate ≠ .fatal) (ho : s.owner = .dma) :
    gate true s k = .next (s.cmdError .busy) := by simp [gate, gateError, h, ho]

theorem gate_open {nb : Bool} {s : State} {k : State → Result} (h : s.xstate ≠ .fatal)
    (ho : nb = true → s.owner = .cpu) : gate nb s k = k s := by
  rw [gate, gateError_none.mpr ⟨h, ho⟩]

/-- The gate refuses with FATAL or BUSY and changes nothing else, or runs the command. -/
theorem gate_next {nb : Bool} {s t : State} {k : State → Result} (h : gate nb s k = .next t) :
    (∃ e, gateError nb s = some e ∧ t = s.cmdError e) ∨ (s.xstate ≠ .fatal ∧ (nb = true → s.owner = .cpu) ∧ k s = .next t) := by
  unfold gate at h
  split at h
  · cases h; exact .inl ⟨_, ‹_›, rfl⟩
  · obtain ⟨h1, h2⟩ := gateError_none.mp ‹_›
    exact .inr ⟨h1, h2, h⟩

theorem complete_next {s t : State} (h : complete s = .next t) : t = s.reply .accepted := by
  cases h; rfl

/-! ## The buffer access (R64) -/

theorem inWindow_iff {c : Config} {off : Offset} : inWindow c off = true ↔ InBufferWindow c off := by
  simp only [inWindow, Bool.and_eq_true, decide_eq_true_eq]; rfl

/-- A buffer access is performed, at the index of its offset, or refused with a bus error. -/
theorem bufferAccess_next {s t : State} {n : Width} {off : Offset} {k : Nat → Result}
    (h : bufferAccess s n off k = .next t) :
    t = s.busError off ∨ (bufferAccessOk s n off = true ∧ k (bufIndex off) = .next t) := by
  unfold bufferAccess at h
  split at h
  · exact .inr ⟨‹_›, h⟩
  · cases h; exact .inl rfl

/-- What an accepted buffer access knows. -/
theorem bufferAccessOk_iff {s : State} {n : Width} {off : Offset} :
    bufferAccessOk s n off = true ↔
      InBufferWindow s.cfg off ∧ off.toNat % n.bytes = 0 ∧ bufIndex off + n.bytes ≤ s.cfg.n ∧ s.owner = .cpu := by
  simp [bufferAccessOk, inWindow_iff, and_assoc]

/-! ## Commands -/

/-- CSUM and CRC: BAD_LEN, or the function of the first LEN bytes in RESULT. -/
theorem lengthCommand_next {f : List Byte → Word} {s t : State} (h : lengthCommand f s = .next t) :
    ((s.len.toNat = 0 ∨ s.cfg.n < s.len.toNat) ∧ t = s.cmdError .badLen) ∨
      ∃ bs, 1 ≤ s.len.toNat ∧ s.len.toNat ≤ s.cfg.n ∧ Holds s 0 s.len.toNat bs ∧
        t = (s.setResult (f bs)).reply .accepted := by
  unfold lengthCommand at h
  split at h
  · cases h; exact .inl ⟨‹_›, rfl⟩
  · obtain ⟨bs, hb, hk⟩ := withBytes_next h
    exact .inr ⟨bs, by omega, by omega, hb, complete_next hk⟩

theorem withOutcome_next {s t : State} {k : Reason → Word → Result} (h : withOutcome s k = .next t) :
    ∃ r seq, validateBuf s = some (r, seq) ∧ k r seq = .next t := by
  unfold withOutcome at h
  split at h
  · exact ⟨_, _, ‹_›, h⟩
  · cases h

/-- On a buffer that is written whole, the lazy validation is Validate. -/
theorem validateBuf_of_holds {s : State} {F : List Byte} (hF : Holds s 0 s.cfg.n F)
    (hp : s.cfg.preLen ≤ s.cfg.n) (ht : s.cfg.trlLen ≤ s.cfg.n) (hq : s.cfg.offSeq + 4 ≤ s.cfg.n) :
    validateBuf s = some (validate s.cfg F s.prevValid s.prevSeq) := by
  have hF' := holds_iff.mp hF
  simp only [validateBuf, hF', Memory.getBytes_slice hF' (off := 0) (w := s.cfg.preLen) (by omega),
    Memory.getBytes_slice hF' (off := s.cfg.n - s.cfg.trlLen) (w := s.cfg.trlLen) (by omega),
    Memory.getBytes_slice hF' hq, validate, structOk, preF, trlF, seqF, getU]
  by_cases h1 : slice F 0 s.cfg.preLen = s.cfg.preamble <;>
    by_cases h2 : slice F (s.cfg.n - s.cfg.trlLen) s.cfg.trlLen = s.cfg.trailer <;> simp [h1, h2]
  split <;> simp [*]

/-- A rejection SEQ comes only with a previous sequence held, and only of a sequence that is not greater. -/
theorem validateBuf_seq {s : State} {q : Word} (h : validateBuf s = some (.seq, q)) :
    s.prevValid = true ∧ q.toNat ≤ s.prevSeq.toNat := by
  have hmode (c : Config) (F : List Byte) : modeReason c F ≠ .seq := by
    unfold modeReason; split <;> (try split) <;> simp
  have hint (c : Config) (F : List Byte) : integrityReason c F ≠ .seq := by
    unfold integrityReason; split <;> simp [hmode]
  unfold validateBuf at h
  split at h
  · split at h
    · simp at h
    · split at h
      · cases h
      · dsimp only at h
        split at h
        · rename_i hs
          simp only [Option.some.injEq, Prod.mk.injEq, true_and] at h
          subst h
          simpa [staleSeq] using hs
        · split at h
          · cases h
          · simp only [Option.some.injEq, Prod.mk.injEq] at h
            exact absurd h.1 (hint _ _)
  · cases h

/-! ## Each instruction's next states -/

theorem execNop_next {s t : State} (h : execNop s = .next t) : t = s.reply .accepted := complete_next h

theorem execClearErrs_next {s t : State} (h : execClearErrs s = .next t) :
    (∃ e, CommandErrorOf s (.bus (Access.command 8)) e ∧ t = s.cmdError e) ∨
      t = { s with errCount := 0, cmdErr := .none, ownErr := false, resp := .accepted } := by
  rcases gate_next h with ⟨e, he, h⟩ | ⟨-, -, h⟩
  · exact .inl ⟨e, commandError_of_gate (by decide) (by decide) he, h⟩
  · exact .inr (complete_next h)

theorem execWCtrl_next {v : Word} {s t : State} (h : execWCtrl v s = .next t) :
    (s.xstate = .idle ∧ t = { s with dir := Direction.ofBit (v.getLsbD 0), resp := .accepted }) ∨
      (s.xstate ≠ .idle ∧ t = s.cmdError .busy) := by
  unfold execWCtrl at h
  split at h
  · exact .inl ⟨‹_›, complete_next h⟩
  · cases h; exact .inr ⟨‹_›, rfl⟩

theorem execRBuf_next {n : Width} {off : Offset} {s t : State} (h : execRBuf n off s = .next t) :
    t = s.busError off ∨
      ∃ bs, bufferAccessOk s n off = true ∧ Holds s (bufIndex off) n.bytes bs ∧
        t = s.reply (.value (BitVec.ofNat 32 (leNat bs))) := by
  rcases bufferAccess_next h with h | ⟨hok, h⟩
  · exact .inl h
  · obtain ⟨bs, hb, hk⟩ := withBytes_next h
    cases hk
    exact .inr ⟨bs, hok, hb, rfl⟩

theorem execWBuf_next {n : Width} {off : Offset} {v : Word} {s t : State} (h : execWBuf n off v s = .next t) :
    t = s.busError off ∨
      (bufferAccessOk s n off = true ∧
        t = (s.setBuf (Memory.setBytes s.buf (bufIndex off) (leBytes n.bytes v.toNat))).reply .accepted) := by
  rcases bufferAccess_next h with h | ⟨hok, h⟩
  · exact .inl h
  · exact .inr ⟨hok, complete_next h⟩

theorem execCsum_next {s t : State} (h : execCsum s = .next t) :
    (∃ e, CommandErrorOf s (.bus (Access.command 1)) e ∧ t = s.cmdError e) ∨
      s.owner = .cpu ∧ ∃ bs, Holds s 0 s.len.toNat bs ∧
        t = (s.setResult ((checksum s.cfg.csumOrder bs).setWidth 32)).reply .accepted := by
  rcases gate_next h with ⟨e, he, h⟩ | ⟨hx, ho, h⟩
  · exact .inl ⟨e, commandError_of_gate (by decide) (by decide) he, h⟩
  · rcases lengthCommand_next h with ⟨hl, h⟩ | ⟨bs, -, -, hb, h⟩
    · exact .inl ⟨.badLen, .badLen 1 (by decide) ⟨hx, ho rfl⟩ hl, h⟩
    · exact .inr ⟨ho rfl, bs, hb, h⟩

theorem execCrc_next {s t : State} (h : execCrc s = .next t) :
    (∃ e, CommandErrorOf s (.bus (Access.command 2)) e ∧ t = s.cmdError e) ∨
      s.owner = .cpu ∧ ∃ bs, Holds s 0 s.len.toNat bs ∧ t = (s.setResult (crc32 bs)).reply .accepted := by
  rcases gate_next h with ⟨e, he, h⟩ | ⟨hx, ho, h⟩
  · exact .inl ⟨e, commandError_of_gate (by decide) (by decide) he, h⟩
  · rcases lengthCommand_next h with ⟨hl, h⟩ | ⟨bs, -, -, hb, h⟩
    · exact .inl ⟨.badLen, .badLen 2 (by decide) ⟨hx, ho rfl⟩ hl, h⟩
    · exact .inr ⟨ho rfl, bs, hb, h⟩

theorem execSeal_next {s t : State} (h : execSeal s = .next t) :
    (∃ e, CommandErrorOf s (.bus (Access.command 3)) e ∧ t = s.cmdError e) ∨
      ∃ F, s.owner = .cpu ∧ Holds s 0 s.cfg.n F ∧ modeOf s.cfg F ≠ .unknown ∧
        t = ((s.setBuf (sealBuf s.cfg s.buf F)).setResult ((sealCsum s.cfg F).setWidth 32)).reply .accepted := by
  rcases gate_next h with ⟨e, he, h⟩ | ⟨hx, ho, h⟩
  · exact .inl ⟨e, commandError_of_gate (by decide) (by decide) he, h⟩
  · obtain ⟨F, hF, h⟩ := withBytes_next h
    split at h
    · cases h; exact .inl ⟨.badMode, .badMode F ⟨hx, ho rfl⟩ hF ‹_›, rfl⟩
    · exact .inr ⟨F, ho rfl, hF, ‹_›, complete_next h⟩

theorem execValidate_next {s t : State} (h : execValidate s = .next t) :
    (∃ e, CommandErrorOf s (.bus (Access.command 4)) e ∧ t = s.cmdError e) ∨
      s.owner = .cpu ∧ ∃ r seq, validateBuf s = some (r, seq) ∧ t = (s.setOutcome r seq).reply .accepted := by
  rcases gate_next h with ⟨e, he, h⟩ | ⟨-, ho, h⟩
  · exact .inl ⟨e, commandError_of_gate (by decide) (by decide) he, h⟩
  · obtain ⟨r, seq, hv, h⟩ := withOutcome_next h
    exact .inr ⟨ho rfl, r, seq, hv, complete_next h⟩

theorem execConsume_next {s t : State} (h : execConsume s = .next t) :
    (∃ e, CommandErrorOf s (.bus (Access.command 5)) e ∧ t = s.cmdError e) ∨
      s.owner = .cpu ∧ ∃ r seq, validateBuf s = some (r, seq) ∧ t = ((s.setOutcome r seq).track r seq).reply .accepted := by
  rcases gate_next h with ⟨e, he, h⟩ | ⟨-, ho, h⟩
  · exact .inl ⟨e, commandError_of_gate (by decide) (by decide) he, h⟩
  · obtain ⟨r, seq, hv, h⟩ := withOutcome_next h
    exact .inr ⟨ho rfl, r, seq, hv, complete_next h⟩

theorem execSessionReset_next {s t : State} (h : execSessionReset s = .next t) :
    (∃ e, CommandErrorOf s (.bus (Access.command 7)) e ∧ t = s.cmdError e) ∨ t = (s.setPrev false 0).reply .accepted := by
  rcases gate_next h with ⟨e, he, h⟩ | ⟨-, -, h⟩
  · exact .inl ⟨e, commandError_of_gate (by decide) (by decide) he, h⟩
  · exact .inr (complete_next h)

theorem execXferStart_next {s t : State} (h : execXferStart s = .next t) :
    (∃ e, CommandErrorOf s (.bus (Access.command 6)) e ∧ t = s.cmdError e) ∨
      (s.xstate ≠ .fatal ∧ s.owner = .cpu ∧ t = (s.setBundle .asserted .dma false).reply .accepted) := by
  rcases gate_next h with ⟨e, he, h⟩ | ⟨hx, ho, h⟩
  · exact .inl ⟨e, commandError_of_gate (by decide) (by decide) he, h⟩
  · exact .inr ⟨hx, ho rfl, complete_next h⟩

/-! ## Steps -/

/-- A step is taken only in an admitted configuration, and performs the next input. -/
theorem step_next {s t : State} (h : step s = .next t) :
    s.cfg.admitted = true ∧ perform (nextInput s).1 (nextInput s).2 = .next t := by
  unfold step at h
  split at h
  · exact ⟨‹_›, h⟩
  · cases h

theorem step_of_admitted {s : State} (h : s.cfg.admitted = true) :
    step s = perform (nextInput s).1 (nextInput s).2 := by rw [step, if_pos h]

theorem step_cons {s : State} {x : Input} {rest : List Input} (h : s.cfg.admitted = true) (hi : s.inputs = x :: rest) :
    step s = perform x { s with inputs := rest } := by
  rw [step_of_admitted h, nextInput, hi]

/-- A CPU access is an instruction, or is rejected with a command or bus error. -/
theorem performAccess_next {a : Access} {s t : State} (h : performAccess a s = .next t) :
    (∃ i, decode a = .ok i ∧ exec i s = .next t) ∨ (∃ r, decode a = .error r ∧ t = rejectAccess r a s) := by
  unfold performAccess at h
  split at h
  · exact .inl ⟨_, ‹_›, h⟩
  · cases h; exact .inr ⟨_, ‹_›, rfl⟩

theorem stepT2_next {rx : List Byte} {s t : State} (h : stepT2 rx s = .next t) :
    (s.xstate ≠ .transferring ∧ t = s) ∨
    (s.xstate = .transferring ∧ s.dir = .transmit ∧ ∃ F, Holds s 0 s.cfg.n F ∧
      t = { s with xstate := .completed, txFrames := s.txFrames ++ [F] }) ∨
    (s.xstate = .transferring ∧ s.dir = .receive ∧
      t = { s with buf := Memory.setBytes [] 0 (rxFrame rx s.draws s.cfg.n), xstate := .completed,
                   draws := s.draws + s.cfg.n }) := by
  unfold stepT2 at h
  split at h
  · rename_i hx
    split at h <;> rename_i hd
    · obtain ⟨F, hF, hk⟩ := withBytes_next h
      cases hk
      exact .inr (.inl ⟨hx, hd, F, hF, rfl⟩)
    · cases h
      exact .inr (.inr ⟨hx, hd, rfl⟩)
  · cases h
    exact .inl ⟨‹_›, rfl⟩

theorem stepT1_next {s t : State} (h : stepT1 s = .next t) :
    (s.xstate = .asserted ∧ t = s.setXState .transferring) ∨ (s.xstate ≠ .asserted ∧ t = s) := by
  unfold stepT1 at h
  split at h <;> cases h
  · exact .inl ⟨‹_›, rfl⟩
  · exact .inr ⟨‹_›, rfl⟩

theorem stepT3_next {s t : State} (h : stepT3 s = .next t) :
    (s.xstate = .transferring ∧ t = s.enterFatal) ∨ (s.xstate ≠ .transferring ∧ t = s) := by
  unfold stepT3 at h
  split at h <;> cases h
  · exact .inl ⟨‹_›, rfl⟩
  · exact .inr ⟨‹_›, rfl⟩

theorem stepT4_next {s t : State} (h : stepT4 s = .next t) :
    (s.xstate = .completed ∧ t = s.setXState .guard) ∨ (s.xstate ≠ .completed ∧ t = s) := by
  unfold stepT4 at h
  split at h <;> cases h
  · exact .inl ⟨‹_›, rfl⟩
  · exact .inr ⟨‹_›, rfl⟩

theorem stepT5_next {s t : State} (h : stepT5 s = .next t) :
    (s.xstate = .guard ∧ t = (s.setBundle .idle .cpu true).raiseIrq 0b01) ∨ (s.xstate ≠ .guard ∧ t = s) := by
  unfold stepT5 at h
  split at h <;> cases h
  · exact .inl ⟨‹_›, rfl⟩
  · exact .inr ⟨‹_›, rfl⟩

end Sys2Proof.Machine
end

