-- ==== Sys2Proof/Laws/Exec.lean ====
section
/-! SUPPORT. exec on each command, as the gate and the body behind it, and the outcome of a validation as `recorded`
says it. -/

namespace Sys2Proof.Machine

theorem exec_csum (s : State) : exec .csum s =
    gate true s fun s => lengthCommand (fun bs => (checksum s.cfg.csumOrder bs).setWidth 32) s := rfl

theorem exec_crc (s : State) : exec .crc s = gate true s fun s => lengthCommand crc32 s := rfl

theorem exec_sealFrame (s : State) : exec .sealFrame s =
    gate true s fun s => withBytes s 0 s.cfg.n fun F =>
      if modeOf s.cfg F = .unknown then .next (s.cmdError .badMode)
      else complete ((s.setBuf (sealBuf s.cfg s.buf F)).setResult ((sealCsum s.cfg F).setWidth 32)) := rfl

theorem exec_validate (s : State) : exec .validate s =
    gate true s fun s => withOutcome s fun r seq => complete (s.setOutcome r seq) := rfl

theorem exec_consume (s : State) : exec .consume s =
    gate true s fun s => withOutcome s fun r seq => complete ((s.setOutcome r seq).track r seq) := rfl

theorem exec_xferStart (s : State) : exec .xferStart s =
    gate true s fun s => complete (s.setBundle .asserted .dma false) := rfl

theorem exec_sessionReset (s : State) : exec .sessionReset s =
    gate false s fun s => complete (s.setPrev false 0) := rfl

theorem exec_clearErrs (s : State) : exec .clearErrs s =
    gate false s fun s => complete { s with errCount := 0, cmdErr := .none, ownErr := false } := rfl

/-- An open gate, for a command that needs the bundle. -/
theorem gate_of_open {s : State} (h : GateOpen s) (k : State → Result) : gate true s k = k s :=
  gate_open h.1 fun _ => h.2

/-- Recording an outcome, with the CPU's access accepted, is `recorded`. -/
theorem setOutcome_reply (s : State) (r : Reason) (q : Word) : (s.setOutcome r q).reply .accepted = recorded s r q := by
  simp only [State.setOutcome, State.setLast, State.setResult, State.reply, recorded, gapFlag, retroFlag, dupFlag]
  congr 1
  · cases r <;> cases s.prevValid <;> simp
  · cases r <;> simp
  · cases r <;> simp; rfl

end Sys2Proof.Machine
end

