-- ==== Sys2Proof/Laws/Functions.lean ====
section
/-! SUPPORT. The small lemmas of the pure functions: numbers and bytes, the overlay of a frame image, the checksum's
fold, and the linearity of the CRC's round. -/

namespace Sys2Proof.Machine

/-! ## Numbers and bytes -/

@[simp] theorem length_leBytes (w v : Nat) : (leBytes w v).length = w := by
  induction w generalizing v with
  | zero => rfl
  | succ w ih => simp [leBytes, ih]

@[simp] theorem length_orderedBytes (o : ByteOrder) (w v : Nat) : (orderedBytes o w v).length = w := by
  cases o <;> simp [orderedBytes]

/-- The bytes of a value give it back, modulo their width. -/
theorem leNat_leBytes (w v : Nat) : leNat (leBytes w v) = v % 256 ^ w := by
  induction w generalizing v with
  | zero => simp [leBytes, leNat, Nat.mod_one]
  | succ w ih =>
    rw [leBytes, leNat, ih, BitVec.toNat_ofNat, show (2 : Nat) ^ 8 = 256 from rfl, pow_succ, Nat.mul_comm (256 ^ w),
      Nat.mod_mul]

theorem orderedNat_orderedBytes (o : ByteOrder) (w v : Nat) : orderedNat o (orderedBytes o w v) = v % 256 ^ w := by
  cases o <;> simp [orderedNat, orderedBytes, leNat_leBytes]

theorem leNat_lt (bs : List Byte) : leNat bs < 256 ^ bs.length := by
  induction bs with
  | nil => simp [leNat]
  | cons b bs ih =>
    have := b.isLt
    rw [leNat, List.length_cons, pow_succ]
    omega

theorem orderedNat_lt (o : ByteOrder) (bs : List Byte) : orderedNat o bs < 256 ^ bs.length := by
  cases o with
  | le => exact leNat_lt bs
  | be => simpa [orderedNat] using leNat_lt bs.reverse

/-! ## The overlay of a frame image -/

@[simp] theorem length_overlay (F : List Byte) (off : Nat) (bs : List Byte) : (overlay F off bs).length = F.length := by
  induction F generalizing off bs with
  | nil => simp [overlay]
  | cons x F ih => cases off <;> cases bs <;> simp [overlay, ih]

theorem getElem?_overlay (F : List Byte) (off : Nat) (bs : List Byte) (j : Nat) :
    (overlay F off bs)[j]? = if off ≤ j ∧ j < off + bs.length ∧ j < F.length then bs[j - off]? else F[j]? := by
  induction F generalizing off bs j with
  | nil => simp [overlay]
  | cons x F ih =>
    cases off with
    | zero =>
      cases bs with
      | nil => simp [overlay]
      | cons b bs =>
        cases j with
        | zero => simp [overlay]
        | succ j => simp [overlay, ih]
    | succ off =>
      cases j with
      | zero => cases bs <;> simp [overlay]
      | succ j =>
        have : overlay (x :: F) (off + 1) bs = x :: overlay F off bs := by cases bs <;> rfl
        rw [this]
        simp [ih, Nat.succ_add]

theorem length_slice {F : List Byte} {off w : Nat} (h : off + w ≤ F.length) : (slice F off w).length = w := by
  simp [slice]; omega

@[simp] theorem length_putU (c : Config) (F : List Byte) (off w v : Nat) : (putU c F off w v).length = F.length := by
  simp [putU]

@[simp] theorem length_zeroed (c : Config) (F : List Byte) : (zeroed c F).length = F.length := by
  simp [zeroed]

/-! ## The checksum's fold (R122) -/

/-- One round of the fold, as a number. -/
theorem fold_toNat (s : Word) :
    ((s &&& 0xFFFF#32) + (s >>> 16)).toNat = s.toNat % 65536 + s.toNat / 65536 := by
  have h1 : (s &&& 0xFFFF#32).toNat = s.toNat % 65536 := by
    rw [BitVec.toNat_and]; exact Nat.and_two_pow_sub_one_eq_mod _ 16
  have h2 : (s >>> 16).toNat = s.toNat / 65536 := by
    rw [BitVec.toNat_ushiftRight, Nat.shiftRight_eq_div_pow]
  have := s.isLt
  rw [BitVec.toNat_add, h1, h2]
  omega

theorem ushift16_eq_zero (s : Word) : s >>> 16 = 0#32 ↔ s.toNat < 65536 := by
  rw [← BitVec.toNat_inj, BitVec.toNat_ushiftRight, Nat.shiftRight_eq_div_pow]
  simp

/-- After two rounds the loop has ended: the high half is 0. -/
theorem csumFold_high (s : Word) : (csumFold 2 s).toNat < 65536 := by
  have hs := s.isLt
  unfold csumFold
  split
  · rename_i h; exact (ushift16_eq_zero s).mp h
  · have h1 := fold_toNat s
    generalize (s &&& 0xFFFF#32) + (s >>> 16) = u at h1
    unfold csumFold
    split
    · rename_i h; exact (ushift16_eq_zero u).mp h
    · rename_i h
      have := mt (ushift16_eq_zero u).mpr h
      rw [csumFold, fold_toNat]
      omega

/-! ## The CRC's round (R124) -/

theorem crcBit_eq (c : Word) : crcBit c = (c >>> 1) ^^^ (if c.getLsbD 0 then 0xC8DF352F#32 else 0#32) := by
  unfold crcBit; split <;> simp

/-- The round is linear over exclusive or. -/
theorem crcBit_xor (x y : Word) : crcBit (x ^^^ y) = crcBit x ^^^ crcBit y := by
  simp only [crcBit_eq, BitVec.getLsbD_xor, BitVec.ushiftRight_xor_distrib]
  cases x.getLsbD 0 <;> cases y.getLsbD 0 <;> simp
  · ac_rfl
  · ac_rfl
  · rw [BitVec.xor_assoc, ← BitVec.xor_assoc 0xC8DF352F#32, BitVec.xor_comm 0xC8DF352F#32, BitVec.xor_assoc]
    simp

theorem crcBits_xor (k : Nat) (x y : Word) : crcBits k (x ^^^ y) = crcBits k x ^^^ crcBits k y := by
  induction k generalizing x y with
  | zero => rfl
  | succ k ih => rw [crcBits, crcBit_xor, ih]; rfl

end Sys2Proof.Machine
end

