-- ==== Sys2Proof/Laws/PerInstr.lean ====
section
/-! SUPPORT. The family EncodeCanon: the access the encoder gives for a well-formed instruction carries no data bit
that means nothing (spec/30_encoding.md R94), one lemma per constructor. -/

namespace Sys2Proof.Laws.EncodeCanon

/-- A well-formed instruction's access is its own canonical form. -/
def Statement (i : Instr) : Prop := i.wellFormed = true → (encode i).canon = encode i

/-- A 32-bit register write carries its data whole. -/
theorem writeReg_canon (r : Reg) (v : Word) : (Access.writeReg r v).canon = Access.writeReg r v := by
  have h : v.toNat % 2 ^ (8 * 4) = v.toNat := Nat.mod_eq_of_lt v.isLt
  simp only [Access.canon, Access.writeReg, h, BitVec.ofNat_toNat, BitVec.setWidth_eq]

theorem nop : Statement .nop := fun _ => writeReg_canon _ _
theorem csum : Statement .csum := fun _ => writeReg_canon _ _
theorem crc : Statement .crc := fun _ => writeReg_canon _ _
theorem sealFrame : Statement .sealFrame := fun _ => writeReg_canon _ _
theorem validate : Statement .validate := fun _ => writeReg_canon _ _
theorem consume : Statement .consume := fun _ => writeReg_canon _ _
theorem xferStart : Statement .xferStart := fun _ => writeReg_canon _ _
theorem sessionReset : Statement .sessionReset := fun _ => writeReg_canon _ _
theorem clearErrs : Statement .clearErrs := fun _ => writeReg_canon _ _
theorem wCtrl (v : Word) : Statement (.wCtrl v) := fun _ => writeReg_canon _ _
theorem wIrqStatus (v : Word) : Statement (.wIrqStatus v) := fun _ => writeReg_canon _ _
theorem wIrqEnable (v : Word) : Statement (.wIrqEnable v) := fun _ => writeReg_canon _ _
theorem wLen (v : Word) : Statement (.wLen v) := fun _ => writeReg_canon _ _
theorem wRoReg (r : RoReg) (v : Word) : Statement (.wRoReg r v) := fun _ => writeReg_canon _ _
theorem rReg (r : Reg) : Statement (.rReg r) := fun _ => rfl
theorem rBuf (n : Width) (off : Offset) : Statement (.rBuf n off) := fun _ => rfl
theorem wBuf (n : Width) (off : Offset) (v : Word) : Statement (.wBuf n off v) := fun h => by
  simp only [Instr.wellFormed, dataFits, Bool.and_eq_true, decide_eq_true_eq] at h
  simp only [Access.canon, encode, Nat.mod_eq_of_lt h.2, BitVec.ofNat_toNat, BitVec.setWidth_eq]

end Sys2Proof.Laws.EncodeCanon
end

