-- ==== Sys2Proof/Laws/Step.lean ====
section
/-! SUPPORT. Everything a step can do, said once: the accesses that decode to an instruction, and one case for each
kind of next state. A statement about every step goes through `perform_case`. -/

namespace Sys2Proof.Machine

theorem reg_at_offset {off : Offset} {r : Reg} (h : Reg.ofOffset? off = some r) : r.offset = off := by
  simpa using List.find?_some h

/-- An access that decodes is a read of a register, a buffer access at the instruction's own offset, or a 32-bit write
to a register. -/
theorem decode_ok_cases {a : Access} {i : Instr} (h : decode a = .ok i) :
    (∃ r, i = .rReg r) ∨ (∃ n, i = .rBuf n a.off) ∨ (∃ n v, i = .wBuf n a.off v) ∨
      ∃ r, a = Access.writeReg r a.data ∧ decodeRegWrite r a.data = .ok i := by
  obtain ⟨dir, width, off, data⟩ := a
  unfold decode at h
  cases dir with
  | fetch => cases h
  | read =>
    dsimp only at h
    split at h
    · split at h
      · split at h <;> cases h
        exact .inl ⟨_, rfl⟩
      · cases h
    · split at h
      · cases h
      · split at h
        · cases h
        · split at h <;> cases h
          exact .inr (.inl ⟨_, rfl⟩)
  | write =>
    dsimp only at h
    split at h
    · split at h
      · rename_i r hr
        split at h
        · subst_vars
          obtain rfl := reg_at_offset hr
          exact .inr (.inr (.inr ⟨r, rfl, h⟩))
        · cases h
      · cases h
    · split at h
      · cases h
      · split at h
        · cases h
        · split at h <;> cases h
          exact .inr (.inr (.inl ⟨_, _, rfl⟩))

/-- A command word that decodes is its opcode, and names the instruction. -/
theorem decodeCmd_ok {w : Word} {i : Instr} (h : decodeCmd w = .ok i) :
    (w = 0 ∧ i = .nop) ∨ (w = 1 ∧ i = .csum) ∨ (w = 2 ∧ i = .crc) ∨ (w = 3 ∧ i = .sealFrame) ∨
      (w = 4 ∧ i = .validate) ∨ (w = 5 ∧ i = .consume) ∨ (w = 6 ∧ i = .xferStart) ∨ (w = 7 ∧ i = .sessionReset) ∨
      (w = 8 ∧ i = .clearErrs) := by
  unfold decodeCmd at h
  split at h
  · cases h
  · rename_i hw
    have hw' := congrArg BitVec.toNat (not_not.mp hw)
    simp only [BitVec.extractLsb'_toNat, Nat.shiftRight_eq_div_pow] at hw' h
    have hlt := w.isLt
    have key (k : Nat) (hk : k < 16) (he : w.toNat / 2 ^ 0 % 2 ^ 4 = k) : w = BitVec.ofNat 32 k := by
      apply BitVec.eq_of_toNat_eq
      rw [BitVec.toNat_ofNat]
      simp at hw'
      omega
    split at h <;> first | cases h; done | skip
    all_goals (rename_i he; cases h; rw [key _ (by decide) he]; simp)

/-- A command word that does not decode is none of the nine opcodes. -/
theorem decodeCmd_error {w : Word} {r : Reject} (h : decodeCmd w = .error r) : 9 ≤ w.toNat := by
  by_contra hw
  have key (k : Nat) (he : w.toNat = k) : w = BitVec.ofNat 32 k := by rw [← he, BitVec.ofNat_toNat, BitVec.setWidth_eq]
  have hlt : w.toNat < 9 := by omega
  generalize hk : w.toNat = k at hlt
  rw [key k hk] at h
  interval_cases k <;> cases h

/-- A rejected access is an illegal command word, or ends with a bus error. -/
theorem rejectAccess_cases {a : Access} {r : Reject} (h : decode a = .error r) (s : State) :
    (∃ w : Word, 9 ≤ w.toNat ∧ a = Access.command w ∧ rejectAccess r a s = s.cmdError .illegal) ∨
      rejectAccess r a s = s.busError a.off := by
  obtain ⟨dir, width, off, data⟩ := a
  unfold decode at h
  cases dir with
  | fetch => cases h; exact .inr rfl
  | read =>
    dsimp only at h
    split at h
    · split at h
      · split at h <;> cases h
        exact .inr rfl
      · cases h; exact .inr rfl
    · split at h
      · cases h; exact .inr rfl
      · split at h
        · cases h; exact .inr rfl
        · split at h <;> cases h
          exact .inr rfl
  | write =>
    dsimp only at h
    split at h
    · split at h
      · rename_i r' hr
        split at h
        · subst_vars
          obtain rfl := reg_at_offset hr
          cases r' <;> try cases h
          have hw := decodeCmd_error (show decodeCmd data = .error r from h)
          cases r with
          | illegalReservedBits => exact .inl ⟨data, hw, rfl, rfl⟩
          | illegalOpcode => exact .inl ⟨data, hw, rfl, rfl⟩
          | _ => exact .inr rfl
        · cases h; exact .inr rfl
      · cases h; exact .inr rfl
    · split at h
      · cases h; exact .inr rfl
      · split at h
        · cases h; exact .inr rfl
        · split at h <;> cases h
          exact .inr rfl

/-- What a step that performs the input x in the state s can lead to. -/
inductive StepCase (s : State) : Input → State → Prop
  /-- A command error. -/
  | cmdError (a : Access) (e : CmdErr) (he : CommandErrorOf s (.bus a) e) : StepCase s (.bus a) (s.cmdError e)
  /-- A bus error. -/
  | busError (a : Access) : StepCase s (.bus a) (s.busError a.off)
  /-- NOP, an ignored write, or a read. -/
  | reply (a : Access) (r : BusResponse) (hr : r ≠ .busError) : StepCase s (.bus a) (s.reply r)
  | csumCrc (k : Word) (v : Word) (hk : k = 1 ∨ k = 2) (ho : s.owner = .cpu) :
      StepCase s (.bus (Access.command k)) ((s.setResult v).reply .accepted)
  | sealFrame (F : List Byte) (ho : s.owner = .cpu) (hF : Holds s 0 s.cfg.n F) (hm : modeOf s.cfg F ≠ .unknown) :
      StepCase s (.bus (Access.command 3))
        (((s.setBuf (sealBuf s.cfg s.buf F)).setResult ((sealCsum s.cfg F).setWidth 32)).reply .accepted)
  | validate (r : Reason) (q : Word) (ho : s.owner = .cpu) (hv : validateBuf s = some (r, q)) :
      StepCase s (.bus (Access.command 4)) ((s.setOutcome r q).reply .accepted)
  | consume (r : Reason) (q : Word) (ho : s.owner = .cpu) (hv : validateBuf s = some (r, q)) :
      StepCase s (.bus (Access.command 5)) (((s.setOutcome r q).track r q).reply .accepted)
  | xferStart (hx : s.xstate ≠ .fatal) (ho : s.owner = .cpu) :
      StepCase s (.bus (Access.command 6)) ((s.setBundle .asserted .dma false).reply .accepted)
  | sessionReset : StepCase s (.bus (Access.command 7)) ((s.setPrev false 0).reply .accepted)
  | clearErrs : StepCase s (.bus (Access.command 8))
      { s with errCount := 0, cmdErr := .none, ownErr := false, resp := .accepted }
  | wCtrl (a : Access) (d : Direction) (hx : s.xstate = .idle) : StepCase s (.bus a) { s with dir := d, resp := .accepted }
  | wIrqStatus (a : Access) (x : BitVec 2) : StepCase s (.bus a) { s with irqStatus := x, resp := .accepted }
  | wIrqEnable (a : Access) (x : BitVec 2) : StepCase s (.bus a) { s with irqEnable := x, resp := .accepted }
  | wLen (a : Access) (x : Half) : StepCase s (.bus a) { s with len := x, resp := .accepted }
  | wBuf (a : Access) (n : Width) (v : Word) (hok : bufferAccessOk s n a.off = true) :
      StepCase s (.bus a) ((s.setBuf (Memory.setBytes s.buf (bufIndex a.off) (leBytes n.bytes v.toNat))).reply .accepted)
  | t1 (hx : s.xstate = .asserted) : StepCase s .t1 (s.setXState .transferring)
  | t2Transmit (rx F : List Byte) (hx : s.xstate = .transferring) (hd : s.dir = .transmit) (hF : Holds s 0 s.cfg.n F) :
      StepCase s (.t2 rx) { s with xstate := .completed, txFrames := s.txFrames ++ [F] }
  | t2Receive (rx : List Byte) (hx : s.xstate = .transferring) (hd : s.dir = .receive) :
      StepCase s (.t2 rx) { s with buf := Memory.setBytes [] 0 (rxFrame rx s.draws s.cfg.n), xstate := .completed,
                                   draws := s.draws + s.cfg.n }
  | t3 (hx : s.xstate = .transferring) : StepCase s .t3 s.enterFatal
  | t4 (hx : s.xstate = .completed) : StepCase s .t4 (s.setXState .guard)
  | t5 (hx : s.xstate = .guard) : StepCase s .t5 ((s.setBundle .idle .cpu true).raiseIrq 0b01)
  | rst : StepCase s .rst s.rst
  /-- An event that XSTATE does not enable. -/
  | disabled (x : Input) (hx : x ≠ .rst) : StepCase s x s

/-- Everything a CPU access that decodes can do. -/
theorem exec_case {a : Access} {i : Instr} {s t : State} (hd : decode a = .ok i) (h : exec i s = .next t) :
    StepCase s (.bus a) t := by
  rcases decode_ok_cases hd with ⟨r, rfl⟩ | ⟨n, rfl⟩ | ⟨n, v, rfl⟩ | ⟨r, ha, hr⟩
  · cases h; exact .reply a _ BusResponse.noConfusion
  · rcases execRBuf_next h with rfl | ⟨bs, -, -, rfl⟩
    · exact .busError a
    · exact .reply a _ BusResponse.noConfusion
  · rcases execWBuf_next h with rfl | ⟨hok, rfl⟩
    · exact .busError a
    · exact .wBuf a n v hok
  · cases r with
    | cmd =>
      rw [ha]
      rw [show decodeRegWrite .cmd a.data = decodeCmd a.data from rfl] at hr
      rcases decodeCmd_ok hr with ⟨hw, rfl⟩ | ⟨hw, rfl⟩ | ⟨hw, rfl⟩ | ⟨hw, rfl⟩ | ⟨hw, rfl⟩ | ⟨hw, rfl⟩ | ⟨hw, rfl⟩ |
        ⟨hw, rfl⟩ | ⟨hw, rfl⟩ <;> rw [hw]
      · cases execNop_next h; exact .reply _ _ BusResponse.noConfusion
      · rcases execCsum_next h with ⟨e, he, rfl⟩ | ⟨ho, bs, -, rfl⟩
        · exact .cmdError _ e he
        · exact .csumCrc 1 _ (.inl rfl) ho
      · rcases execCrc_next h with ⟨e, he, rfl⟩ | ⟨ho, bs, -, rfl⟩
        · exact .cmdError _ e he
        · exact .csumCrc 2 _ (.inr rfl) ho
      · rcases execSeal_next h with ⟨e, he, rfl⟩ | ⟨F, ho, hF, hm, rfl⟩
        · exact .cmdError _ e he
        · exact .sealFrame F ho hF hm
      · rcases execValidate_next h with ⟨e, he, rfl⟩ | ⟨ho, r, q, hv, rfl⟩
        · exact .cmdError _ e he
        · exact .validate r q ho hv
      · rcases execConsume_next h with ⟨e, he, rfl⟩ | ⟨ho, r, q, hv, rfl⟩
        · exact .cmdError _ e he
        · exact .consume r q ho hv
      · rcases execXferStart_next h with ⟨e, he, rfl⟩ | ⟨hx, ho, rfl⟩
        · exact .cmdError _ e he
        · exact .xferStart hx ho
      · rcases execSessionReset_next h with ⟨e, he, rfl⟩ | rfl
        · exact .cmdError _ e he
        · exact .sessionReset
      · rcases execClearErrs_next h with ⟨e, he, rfl⟩ | rfl
        · exact .cmdError _ e he
        · exact .clearErrs
    | ctrl =>
      cases hr
      rcases execWCtrl_next h with ⟨hx, rfl⟩ | ⟨hx, rfl⟩
      · exact .wCtrl a _ hx
      · rw [ha]
        exact .cmdError _ _ (.ctrl a.data hx)
    | irqStatus => cases hr; cases h; exact .wIrqStatus a _
    | irqEnable => cases hr; cases h; exact .wIrqEnable a _
    | len => cases hr; cases h; exact .wLen a _
    | _ => cases hr; cases h; exact .reply a _ BusResponse.noConfusion

/-- Everything a step can do. -/
theorem perform_case {x : Input} {s t : State} (h : perform x s = .next t) : StepCase s x t := by
  cases x with
  | bus a =>
    rcases performAccess_next h with ⟨i, hd, he⟩ | ⟨r, hr, rfl⟩
    · exact exec_case hd he
    · rcases rejectAccess_cases hr s with ⟨w, hw, rfl, h⟩ | h <;> rw [h]
      · exact .cmdError _ _ (.illegal w hw)
      · exact .busError a
  | t1 =>
    rcases stepT1_next h with ⟨hx, rfl⟩ | ⟨-, rfl⟩
    · exact .t1 hx
    · exact .disabled _ Input.noConfusion
  | t2 rx =>
    rcases stepT2_next h with ⟨-, rfl⟩ | ⟨hx, hd, F, hF, rfl⟩ | ⟨hx, hd, rfl⟩
    · exact .disabled _ Input.noConfusion
    · exact .t2Transmit rx F hx hd hF
    · exact .t2Receive rx hx hd
  | t3 =>
    rcases stepT3_next h with ⟨hx, rfl⟩ | ⟨-, rfl⟩
    · exact .t3 hx
    · exact .disabled _ Input.noConfusion
  | t4 =>
    rcases stepT4_next h with ⟨hx, rfl⟩ | ⟨-, rfl⟩
    · exact .t4 hx
    · exact .disabled _ Input.noConfusion
  | t5 =>
    rcases stepT5_next h with ⟨hx, rfl⟩ | ⟨-, rfl⟩
    · exact .t5 hx
    · exact .disabled _ Input.noConfusion
  | rst => cases h; exact .rst

/-- The state a step's input is performed in: the state without that input, with a draw counted where the input is
free. -/
theorem nextInput_cases (s : State) :
    (∃ rest, s.inputs = (nextInput s).1 :: rest ∧ (nextInput s).2 = { s with inputs := rest }) ∨
      (s.inputs = [] ∧ (nextInput s).2 = { s with draws := s.draws + 1 }) := by
  unfold nextInput
  split
  · exact .inr ⟨‹_›, rfl⟩
  · exact .inl ⟨_, ‹_›, rfl⟩

end Sys2Proof.Machine
end

