-- ==== Sys2Proof/Tests/Slice0.lean ====
section
/-! SUPPORT. Tests: each well-formedness check refuses an ill-formed term, words written out from spec/30_encoding.md
decode, one-step tests whose expected results are the vectors of spec/95_test_vectors.md, and, for every statement with
hypotheses, a state and operands that meet them. -/

namespace Sys2Proof.Tests

open Sys2Proof.Machine

/-! ## Well-formedness: each check refuses an ill-formed term -/

theorem test_wf_rBuf_below_window : (Instr.rBuf .four 0x0FC).wellFormed = false := by decide
theorem test_wf_rBuf_misaligned : (Instr.rBuf .two 0x101).wellFormed = false := by decide
theorem test_wf_wBuf_below_window : (Instr.wBuf .one 0x0FF 0).wellFormed = false := by decide
theorem test_wf_wBuf_misaligned : (Instr.wBuf .four 0x102 0).wellFormed = false := by decide
theorem test_wf_wBuf_data_too_wide : (Instr.wBuf .one 0x100 0x100).wellFormed = false := by decide
theorem test_wf_accepts : (Instr.wBuf .one 0x100 0xFF).wellFormed = true ∧ (Instr.rBuf .four 0xFFC).wellFormed = true := by
  decide

/-- R13, clause by clause, on variants of REF. -/
theorem test_config_sizes : ({ Config.ref with n := 3841 } : Config).admitted = false ∧
    ({ Config.ref with n := 183 - 20, offMode := 2 } : Config).sizesOk = false ∧
    ({ Config.ref with preamble := [] } : Config).sizesOk = false ∧
    ({ Config.ref with trailer := [] } : Config).sizesOk = false := by decide
theorem test_config_field_outside : ({ Config.ref with offCrc := 17 } : Config).fieldsInside = false ∧
    ({ Config.ref with offMode := 1 } : Config).fieldsInside = false := by decide
theorem test_config_fields_overlap : ({ Config.ref with offCsum := 11 } : Config).fieldsDisjoint = false := by decide
theorem test_config_field_order : ({ Config.ref with offMode := 12 } : Config).fieldsOrdered = false := by decide
theorem test_config_modes : ({ Config.ref with modeSafety := 0 } : Config).modesOk = false ∧
    ({ Config.ref with modeSafety := 256 } : Config).modesOk = false ∧
    ({ Config.ref with wMode := 3 } : Config).modesOk = false := by decide
theorem test_config_ref : Config.ref.admitted = true := by decide

/-! ## Decoding: one access or word for each constructor (R91, R94, R34) -/

theorem test_decode_commands : (List.range 9).map (decodeTableWord 32) =
    [some .nop, some .csum, some .crc, some .sealFrame, some .validate, some .consume, some .xferStart,
     some .sessionReset, some .clearErrs] := by decide
theorem test_decode_illegal_commands : (List.range 7).map (fun k => decodeTableWord 32 (9 + k)) =
    List.replicate 7 none ∧ decodeTableWord 32 0x10 = none ∧ decodeTableWord 32 0x80000003 = none := by decide
theorem test_decode_wCtrl : decode ⟨.write, 4, 0x008, 1⟩ = .ok (.wCtrl 1) := by decide
theorem test_decode_wIrqStatus : decode ⟨.write, 4, 0x024, 2⟩ = .ok (.wIrqStatus 2) := by decide
theorem test_decode_wIrqEnable : decode ⟨.write, 4, 0x028, 3⟩ = .ok (.wIrqEnable 3) := by decide
theorem test_decode_wLen : decode ⟨.write, 4, 0x018, 0xB7⟩ = .ok (.wLen 0xB7) := by decide
theorem test_decode_wRoReg : decode ⟨.write, 4, 0x020, 7⟩ = .ok (.wRoReg .errCount 7) := by decide
theorem test_decode_rReg : decode ⟨.read, 4, 0x00C, 0⟩ = .ok (.rReg .cmd) := by decide
theorem test_decode_rBuf : decode ⟨.read, 1, 0x100, 0⟩ = .ok (.rBuf .one 0x100) := by decide
theorem test_decode_wBuf : decode ⟨.write, 4, 0x100, 0x070155AA⟩ = .ok (.wBuf .four 0x100 0x070155AA) := by decide
theorem test_decode_wBuf_low_bytes : decode ⟨.write, 1, 0x108, 0xFFFFFF39⟩ = .ok (.wBuf .one 0x108 0x39) := by decide
/-- The opcode table's MMIO rows, with off in bits 11:0 (a 32-bit write where no more is said). -/
theorem test_table_words : decodeTableWord 16 0x008 = some (.wCtrl 0) ∧ decodeTableWord 16 0x100 = some (.wBuf .four 0x100 0) ∧
    decodeTableWord 16 0x4010 = some (.rReg .status) ∧ decodeTableWord 16 0x4100 = some (.rBuf .four 0x100) := by decide
/-- R64 (V-BUS-2, 3, 4, 9, 10). -/
theorem test_decode_rejects :
    decode ⟨.write, 4, 0x030, 0⟩ = .error .reservedOffset ∧ decode ⟨.read, 2, 0x010, 0⟩ = .error .registerForm ∧
    decode ⟨.read, 4, 0x012, 0⟩ = .error .registerForm ∧ decode ⟨.write, 2, 0x00C, 3⟩ = .error .registerForm ∧
    decode ⟨.fetch, 4, 0x100, 0⟩ = .error .instructionFetch ∧ decode ⟨.read, 3, 0x100, 0⟩ = .error .bufferWidth := by decide
theorem test_address_of_window (w : Word) :
    accessAtAddress .write 4 (Config.fiuBase + 0x018) w = some ⟨.write, 4, 0x018, w⟩ ∧
      accessAtAddress .write 4 (Config.fiuBase + 0x1000) w = none := by
  constructor <;> simp [accessAtAddress]

/-! ## The small states of the tests -/

/-- The default payload P of spec/95_test_vectors.md section 0. -/
def payload : List Byte := (List.range 160).map (BitVec.ofNat 8)

/-- The REF frame of section 0 with sequence byte s, mode byte m and the six integrity bytes. -/
def frame (s m : Byte) (six : List Byte) : List Byte :=
  [0xAA, 0x55, m, 0x07, 0, 0, 0, 0, s, 0, 0, 0, 0xA0, 0x00] ++ six ++ payload ++ [0x55, 0xAA]

/-- make(s, m). -/
def make (s m : Byte) : List Byte := frame s m [0, 0, 0, 0, 0, 0]

/-- F_S5, F_N3, F_N5, F_N9 and F_S0. -/
def frameS5 : List Byte := frame 5 1 [0xDF, 0x90, 0x12, 0x0E, 0x8B, 0x75]
def frameN3 : List Byte := frame 3 0 [0xDF, 0x93, 0, 0, 0, 0]
def frameN5 : List Byte := frame 5 0 [0xDF, 0x91, 0, 0, 0, 0]
def frameN9 : List Byte := frame 9 0 [0xDF, 0x8D, 0, 0, 0, 0]
def frameS0 : List Byte := frame 0 1 [0xDF, 0x95, 0x27, 0x4F, 0xEE, 0x52]

/-- The cells of a byte sequence from index i on. -/
def cells : Nat → List Byte → Memory
  | _, [] => []
  | i, b :: bs => (i, b) :: cells (i + 1) bs

/-- The machine after reset with these bytes from BUF[0] on. -/
def load (bs : List Byte) : State := { State.reset with buf := cells 0 bs }

/-- The machine in a phase of a transfer (R24: OWNER = 1, CS_N = 0). -/
def during (x : XState) (bs : List Byte) : State := { load bs with xstate := x, owner := .dma, csN := false }

/-- The next state, or none at a fault or a refusal. -/
def next? (r : Result) : Option State :=
  match r with
  | .next t => some t
  | .fault _ => none
  | .refused _ => none

/-- The fault, or none. -/
def fault? (r : Result) : Option Fault :=
  match r with
  | .next _ => none
  | .fault f => some f
  | .refused _ => none

/-! ## The functions (sections 2.1 and 2.2) -/

/-- V-CS-1 to 5 and 7 to 12. -/
theorem test_checksum_vectors :
    [[0x00], [0xFF], [0xAB], [0x01, 0x02], [0x01, 0x02, 0x03], [0xFF, 0xFF], [0, 0, 0, 0],
     [0x00, 0x01, 0xF2, 0x03, 0xF4, 0xF5, 0xF6, 0xF7], [0xFF, 0xFE, 0x00, 0x01], [0x80, 0x00, 0x80, 0x00],
     [0x31, 0x32, 0x33, 0x34, 0x35, 0x36, 0x37, 0x38, 0x39]].map (fun b => (checksum .be b, checksum .le b)) =
    [(0xFFFF, 0xFFFF), (0xFF00, 0xFF00), (0xFF54, 0xFF54), (0xFEFD, 0xFDFE), (0xFEFA, 0xFDFB), (0, 0), (0xFFFF, 0xFFFF),
     (0x220D, 0x0D22), (0, 0), (0xFFFE, 0xFEFF), (0x2EF2, 0x2AF6)] := by decide +kernel

/-- V-CRC-2 to 5, 7 and 8. -/
theorem test_crc_vectors :
    [[0x00], [0xFF], [0x01], [0, 0, 0, 0], (List.range 32).map (BitVec.ofNat 8), []].map crc32 =
    [0x6016DC99, 0xFF000000, 0x5093D36C, 0x6FB32240, 0xA0967901, 0] := by decide +kernel

set_option maxRecDepth 100000 in
/-- V-CS-13, V-CS-14, V-CRC-10, V-CRC-11: the whole REF frame. -/
theorem test_frame_functions :
    checksum .be (zeroed Config.ref (make 0 0)) = 0x96DF ∧ checksum .le (zeroed Config.ref (make 5 1)) = 0xDF90 ∧
    crc32 (zeroed Config.ref frameS5) = 0x758B0E12 ∧ crc32 (make 0 0) = 0x6E7C606E := by decide +kernel

set_option maxRecDepth 100000 in
/-- V-VAL-1 to 3, 5 to 11 and 13. -/
theorem test_validate_vectors :
    [frameS5, frameS5.set 0 0xAB, frameS5.set 181 0xAB, frameS5.set 16 0x92,
     frame 5 0 [0xDF, 0x91, 0x78, 0x56, 0x34, 0x12], frame 5 2 [0xDF, 0x8F, 0, 0, 0, 0], make 5 2,
     frameS5.set 2 0x00].map (fun F => validate Config.ref F false 0) =
    [(.ok, 5), (.struct, 0), (.struct, 0), (.crc, 5), (.unexpCrc, 5), (.mode, 5), (.csum, 5), (.csum, 5)] ∧
    validate Config.ref frameS5 true 5 = (.seq, 5) ∧ validate Config.ref frameN3 true 4 = (.seq, 3) ∧
    validate Config.ref frameN5 true 0xFFFFFFFF = (.seq, 5) := by decide +kernel

/-! ## One step of each instruction -/

/-- V-CTL-7. -/
theorem test_nop_fatal : next? (exec .nop { during .fatal [] with cmdErr := .busy }) =
    some { during .fatal [] with cmdErr := .busy, resp := .accepted } := by decide

/-- V-ERR-6. -/
theorem test_csum_len1 : (next? (exec .csum { load [0xAB] with len := 1 })).map (·.result) = some 0x0000FF54 := by
  decide +kernel
/-- V-ERR-3. -/
theorem test_csum_busy_first : (next? (exec .csum { during .guard [] with len := 0 })).map (·.cmdErr) = some .busy := by
  decide +kernel

/-- V-ERR-7. -/
theorem test_crc_check : (next? (exec .crc { load [0x31, 0x32, 0x33, 0x34, 0x35, 0x36, 0x37, 0x38, 0x39] with
    len := 9 })).map (·.result) = some 0x1697D06A := by decide +kernel
/-- V-ERR-2. -/
theorem test_crc_bad_len : (next? (exec .crc { load [] with len := 183 })).map (fun t => (t.cmdErr, t.result)) =
    some (.badLen, 0) := by decide +kernel

set_option maxRecDepth 100000 in
/-- V-SEAL-5: the old field values are ignored, and only bytes 14 to 19 change. -/
theorem test_seal_safety : (next? (exec .sealFrame (load (frame 5 1 [0x11, 0x22, 0x33, 0x44, 0x55, 0x66])))).map
    (fun t => (t.buf, t.result)) = some (cells 0 frameS5, 0x000090DF) := by decide +kernel
/-- V-SEAL-7. -/
theorem test_seal_unknown_mode : (next? (exec .sealFrame (load (make 5 2)))).map (fun t => (t.cmdErr, t.result)) =
    some (.badMode, 0) := by decide +kernel

/-- V-VAL-4 at (0, 0): one payload bit flipped. -/
theorem test_validate_flipped_bit : (next? (exec .validate (load (frameS5.set 100 0x51)))).map
    (fun t => (t.lastReason, t.result, t.errCount)) = some (.csum, 5, 0) := by decide +kernel
/-- V-VAL-12 at (1, 4). -/
theorem test_validate_gap : (next? (exec .validate { load frameN9 with prevValid := true, prevSeq := 4 })).map
    (fun t => (t.lastReason, t.lastGap, t.lastDup, t.result, t.prevSeq)) = some (.ok, true, false, 9, 4) := by
  decide +kernel

/-- V-TRK-1, step 3. -/
theorem test_consume_gap : (next? (exec .consume { load frameN3 with prevValid := true, prevSeq := 1 })).map
    (fun t => (statusWord t, t.result, t.prevSeq, t.errCount)) = some (0x00001150, 3, 3, 1) := by decide +kernel
/-- V-TRK-4. -/
theorem test_consume_saturates : (next? (exec .consume { load frameN5 with
    prevValid := true, prevSeq := 5, errCount := 0xFFFFFFFF })).map
    (fun t => (t.lastDup, t.errCount, t.prevSeq)) = some (true, 0xFFFFFFFF, 5) := by decide +kernel

/-- V-XFR-1, first step. -/
theorem test_xferStart : (next? (exec .xferStart (load []))).map (fun t => (statusWord t, t.owner)) =
    some (0x00000009, .dma) := by decide
/-- V-XFR-4. -/
theorem test_xferStart_busy : (next? (exec .xferStart (during .asserted []))).map statusWord = some 0x00020009 := by decide

/-- V-TRK-5. -/
theorem test_sessionReset_while_owned : (next? (exec .sessionReset { during .asserted [] with
    prevValid := true, prevSeq := 9 })).map (fun t => (t.prevValid, t.prevSeq, t.cmdErr)) = some (false, 0, .none) := by decide

/-- V-CTL-5. -/
theorem test_clearErrs : (next? (exec .clearErrs
    { load [] with errCount := 5, cmdErr := .badLen, ownErr := true, prevValid := true, lastReason := .ok })).map
    (fun t => (t.errCount, t.cmdErr, t.ownErr, t.prevValid, t.lastReason)) = some (0, .none, false, true, .ok) := by decide
/-- V-CTL-6. -/
theorem test_clearErrs_fatal : (next? (exec .clearErrs { during .fatal [] with errCount := 5 })).map
    (fun t => (t.errCount, t.cmdErr)) = some (5, .fatal) := by decide

/-- V-XFR-10. -/
theorem test_wCtrl_busy : (next? (exec (.wCtrl 1) (during .guard []))).map (fun t => (t.dir, t.cmdErr)) =
    some (.transmit, .busy) := by decide
/-- P2, line 1, and bits 31:1 ignored. -/
theorem test_wCtrl_idle : (next? (exec (.wCtrl 0xFFFFFFFF) (load []))).map (fun t => (t.dir, t.cmdErr)) =
    some (.receive, .none) := by decide

/-- V-CTL-11 and V-CTL-12. -/
theorem test_wIrqStatus :
    (next? (exec (.wIrqStatus 1) { load [] with irqStatus := 3 })).map (·.irqStatus) = some 2 ∧
    (next? (exec (.wIrqStatus 0xFFFFFFFC) { load [] with irqStatus := 3 })).map (·.irqStatus) = some 3 := by decide
/-- V-CTL-13. -/
theorem test_wIrqEnable : (next? (exec (.wIrqEnable 0xFFFFFFFF) (load []))).map (readReg · .irqEnable) = some 3 := by decide
/-- V-CTL-14. -/
theorem test_wLen : (next? (exec (.wLen 0x12345678) (load []))).map (readReg · .len) = some 0x00005678 := by decide
/-- V-CTL-15. -/
theorem test_wRoReg_status : (next? (exec (.wRoReg .status 0xFFFFFFFF) (load []))).map
    (fun t => (statusWord t, t.resp)) = some (0x00000010, .accepted) := by decide

/-- V-CTL-1, 2 and 3. -/
theorem test_rReg_reset :
    [Reg.id, .config, .status, .len, .result, .cmd].map (fun r => (next? (exec (.rReg r) State.reset)).map (·.resp)) =
    [0x46495501, 0x000000B6, 0x00000010, 0x000000B6, 0, 0].map (fun v => some (.value v)) := by decide

/-- V-CTL-16 and V-CTL-17. -/
theorem test_rBuf_little_endian :
    (next? (exec (.rBuf .two 0x102) (load [0x31, 0x32, 0x33, 0x34]))).map (·.resp) = some (.value 0x3433) ∧
    (next? (exec (.rBuf .four 0x100) (load [0x31, 0x32, 0x33, 0x34]))).map (·.resp) = some (.value 0x34333231) := by decide
/-- V-BUS-6, V-BUS-7, V-RST-2. -/
theorem test_rBuf_end :
    (next? (exec (.rBuf .four 0x1B4) (load frameS5))).map (fun t => (t.resp, t.ownErr)) = some (.busError, false) ∧
    (next? (exec (.rBuf .two 0x1B4) (load frameS5))).map (·.resp) = some (.value 0xAA55) ∧
    fault? (exec (.rBuf .one 0x100) State.reset) = some .unwrittenByte := by decide +kernel

/-- P1, lines 4 and 49. -/
theorem test_wBuf_little_endian :
    (next? (exec (.wBuf .four 0x100 0x070155AA) State.reset)).map (·.buf) =
      some [(0, 0xAA), (1, 0x55), (2, 0x01), (3, 0x07)] ∧
    (next? (exec (.wBuf .two 0x1B4 0xAA55) State.reset)).map (·.buf) = some [(180, 0x55), (181, 0xAA)] := by decide
/-- V-BUS-1 and V-BUS-8. -/
theorem test_wBuf_misaligned :
    (next? (performAccess ⟨.write, 2, 0x101, 0⟩ (load []))).map (fun t => (t.resp, t.ownErr, t.buf)) =
      some (.busError, false, []) ∧
    (next? (performAccess ⟨.write, 2, 0x101, 0⟩ (during .guard []))).map (fun t => (t.resp, t.ownErr)) =
      some (.busError, true) := by decide

/-! ## One step of each event, and of an illegal command word -/

/-- V-XFR-3, third step: the received frame. -/
theorem test_t2_receive : (next? (perform (.t2 frameS5) { during .transferring [] with dir := .receive })).map
    (fun t => (t.buf, t.xstate)) = some (cells 0 frameS5, .completed) := by decide +kernel
/-- V-XFR-1, third step. -/
theorem test_t2_transmit : (next? (perform (.t2 []) (during .transferring frameS5))).map
    (fun t => (t.txFrames, statusWord t)) = some ([frameS5], 0x0000000B) := by decide +kernel
/-- V-XFR-5 and V-XFR-6. -/
theorem test_t3 : (next? (perform .t3 (during .transferring [0xAA]))).map (fun t => (statusWord t, t.irqStatus, t.buf)) =
      some (0x0000002F, 2, [(0, 0xAA)]) ∧
    (next? (perform .t3 { during .transferring [0xAA] with dir := .receive })).map
      (fun t => (statusWord t &&& 0xFF, t.buf)) = some (0x0000002F, []) := by decide
/-- V-XFR-2, last step. -/
theorem test_t5 : (next? (perform .t5 { during .guard [] with irqEnable := 1 })).map
    (fun t => (statusWord t, t.irqStatus, t.irq)) = some (0x00000010, 1, true) := by decide
/-- V-RST-1. -/
theorem test_rst : (next? (perform .rst { during .fatal [1] with len := 5, irqStatus := 3, ownErr := true })) =
    some State.reset := by decide
/-- V-CTL-8 and V-CTL-10. -/
theorem test_illegal_words :
    (next? (performAccess (Access.command 0x10) (load []))).map (·.cmdErr) = some .illegal ∧
    (next? (performAccess (Access.command 0xF) (during .fatal []))).map (·.cmdErr) = some .illegal := by decide
/-- withFetchWord makes the next step run the word, from reset. -/
theorem test_withFetchWord : (next? (step (State.reset.withFetchWord 32 6))).map (fun t => (statusWord t, t.inputs)) =
    some (0x00000009, []) := by decide

/-! ## Witnesses: for each statement with hypotheses, operands and states that meet all of them together, at the
boundaries of each clause -/

/-- The invariant, as a check. -/
def invCheck (s : State) : Bool :=
  s.cfg.admitted && Memory.wf s.buf && s.buf.all (fun p => decide (p.1 < s.cfg.n)) &&
    decide (s.owner = .cpu ↔ s.xstate = .idle) && decide (s.csN = true ↔ s.xstate = .idle) &&
    decide (s.prevValid = false → s.prevSeq = 0)

theorem mem_of_get {m : Memory} {i : Nat} {b : Byte} (h : Memory.get m i = some b) : (i, b) ∈ m := by
  induction m with
  | nil => cases h
  | cons p m ih =>
    obtain ⟨j, c⟩ := p
    rw [Memory.get] at h
    split at h
    · cases h; subst_vars; exact List.mem_cons_self
    · exact List.mem_cons_of_mem _ (ih h)

theorem inv_of_check {s : State} (h : invCheck s = true) : Inv s := by
  simp only [invCheck, Bool.and_eq_true, decide_eq_true_eq, List.all_eq_true] at h
  obtain ⟨⟨⟨⟨⟨h1, h2⟩, h3⟩, h4⟩, h5⟩, h6⟩ := h
  exact ⟨h1, h2, fun i b hg => h3 _ (mem_of_get hg), h4, h5, h6⟩

theorem exists_next {r : Result} (h : (next? r).isSome = true) : ∃ t, r = .next t := by
  cases r
  · exact ⟨_, rfl⟩
  · cases h
  · cases h

theorem next_of {r : Result} {t : State} (h : next? r = some t) : r = .next t := by
  cases r <;> cases h
  rfl

/-- After reset with F_S5 in BUF: idle, the gate open. -/
def idleS5 : State := load frameS5

theorem holds_frame (F : List Byte) (h : Memory.getBytes (cells 0 F) 0 182 = some F) : Holds (load F) 0 (load F).cfg.n F :=
  holds_iff.mpr h

theorem holds_S5 : Holds idleS5 0 idleS5.cfg.n frameS5 := holds_frame frameS5 (by decide +kernel)

theorem open_load (bs : List Byte) : GateOpen (load bs) := ⟨XState.noConfusion, rfl⟩

theorem witness_RoundTrip : (Instr.wBuf .four 0xFFC 0xFFFFFFFF).wellFormed = true ∧
    (Instr.wBuf .one 0x100 0xFF).wellFormed = true ∧ (Instr.rBuf .two 0x100).wellFormed = true := by decide

theorem witness_Canonical : decode ⟨.write, 1, 0x100, 0x1FF⟩ = .ok (.wBuf .one 0x100 0xFF) ∧
    decode ⟨.read, 4, 0x028, 5⟩ = .ok (.rReg .irqEnable) := by decide

theorem witness_CommandWordDecoding : (0x10 : Word).extractLsb' 4 28 ≠ 0 ∧ (0x9 : Word).extractLsb' 4 28 = 0 ∧
    9 ≤ (0x9 : Word).toNat ∧ (0xF : Word).extractLsb' 4 28 = 0 ∧ Config.ref.admitted = true := by decide

/-- The machine with one access coming. -/
def coming (s : State) (x : Input) : State := { s with inputs := [x] }

theorem witness_IllegalCommand : ∃ (s : State) (rest : List Input), s.cfg.admitted = true ∧
    9 ≤ (0xFFFFFFFF : Word).toNat ∧ s.inputs = .bus (Access.command 0xFFFFFFFF) :: rest :=
  ⟨coming State.reset (.bus (Access.command 0xFFFFFFFF)), [], by decide, by decide, rfl⟩

theorem witness_StepRuns : (coming State.reset (.bus (Access.command 3))).cfg.admitted = true ∧
    decode (Access.command 3) = .ok .sealFrame ∧ State.reset.cfg.admitted = true ∧ State.reset.inputs = [] := by decide

/-- One access for each case of R64, at a boundary. -/
theorem witness_Refused :
    Refused State.reset ⟨.read, 4, 0x02C, 0⟩ ∧ Refused State.reset ⟨.read, 1, 0x0FF, 0⟩ ∧
    Refused State.reset ⟨.write, 4, 0x1B6, 0⟩ ∧ Refused State.reset ⟨.read, 2, 0x028, 0⟩ ∧
    Refused State.reset ⟨.write, 4, 0x001, 0⟩ ∧ Refused State.reset ⟨.read, 3, 0x100, 0⟩ ∧
    Refused State.reset ⟨.read, 2, 0x101, 0⟩ ∧ Refused State.reset ⟨.write, 4, 0x1B4, 0⟩ ∧
    Refused (during .guard []) ⟨.read, 1, 0x1B5, 0⟩ ∧ Refused State.reset ⟨.fetch, 4, 0x000, 0⟩ := by
  refine ⟨?_, ?_, ?_, ?_, ?_, ?_, ?_, ?_, ?_, ?_⟩ <;> (unfold Refused InBufferWindow; decide)

/-- Accepted accesses next to them; and case (f) holds or not. -/
theorem witness_NotRefused :
    ¬ Refused State.reset ⟨.read, 4, 0x028, 0⟩ ∧ ¬ Refused State.reset ⟨.write, 1, 0x100, 0⟩ ∧
    ¬ Refused State.reset ⟨.write, 2, 0x1B4, 0⟩ ∧ ¬ Refused State.reset ⟨.write, 1, 0x1B5, 0⟩ ∧
    ¬ (InBufferWindow State.reset.cfg 0x100 ∧ State.reset.owner = .dma) ∧
    (InBufferWindow (during .guard []).cfg 0x100 ∧ (during .guard []).owner = .dma) ∧
    (InBufferWindow (during .guard []).cfg 0x1B5 ∧ (during .guard []).owner = .dma) := by
  refine ⟨?_, ?_, ?_, ?_, ?_, ?_, ?_⟩ <;> first
    | (unfold Refused InBufferWindow; decide)
    | (unfold InBufferWindow; decide)

/-- The least and the greatest N of R13(a), and a configuration that is refused. -/
theorem witness_AdmittedConfigurations :
    ({ Config.ref with n := 3840 } : Config).admitted = true ∧ ({ Config.ref with n := 182 } : Config).admitted = true ∧
    ({ Config.ref with n := 181 } : Config).admitted = false ∧ ({ Config.ref with n := 3841 } : Config).admitted = false := by decide

theorem witness_GatePrecedence : (Instr.csum ∈ fatalCommands ∧ Instr.clearErrs ∈ fatalCommands) ∧
    (during .fatal []).xstate = .fatal ∧ Instr.xferStart ∈ bundleCommands ∧
    (during .guard []).xstate ≠ .fatal ∧ (during .guard []).owner = .dma := by decide

/-- CSUM and CRC: LEN 0, N + 1, an unwritten byte at LEN = N, a written first byte, and all N bytes written. -/
theorem witness_LengthCommands :
    (GateOpen { load [] with len := 0 } ∧ ({ load [] with len := 0 } : State).len.toNat = 0) ∧
    (GateOpen { load [] with len := 183 } ∧ State.reset.cfg.n < ({ load [] with len := 183 } : State).len.toNat) ∧
    (GateOpen (load []) ∧ 1 ≤ (load []).len.toNat ∧ (load []).len.toNat ≤ (load []).cfg.n ∧
      HasUnwritten (load []) 0 (load []).len.toNat) ∧
    (GateOpen { load [0xAB] with len := 1 } ∧ Holds { load [0xAB] with len := 1 } 0 1 [0xAB]) ∧
    (GateOpen idleS5 ∧ idleS5.len.toNat = idleS5.cfg.n ∧ Holds idleS5 0 idleS5.len.toNat frameS5) :=
  ⟨⟨open_load [], rfl⟩, ⟨open_load [], by decide⟩, ⟨open_load [], by decide, by decide, 0, by decide, rfl⟩,
    ⟨open_load [0xAB], holds_iff.mpr (by decide)⟩, open_load _, by decide, holds_S5⟩

/-- An unwritten mode field is not an unknown mode. -/
theorem mode_unwritten (m : Memory) (h : Memory.getBytes m 2 1 = none) :
    ¬ ModeFieldUnknown { State.reset with buf := m } := by
  rintro ⟨q, hq, -⟩
  have hs : Memory.getBytes m 2 1 = some q := holds_iff.mp hq
  rw [h] at hs
  cases hs

theorem witness_Seal :
    (GateOpen (load []) ∧ HasUnwritten (load []) 0 (load []).cfg.n ∧ ¬ ModeFieldUnknown (load [])) ∧
    (GateOpen (load (make 5 2)) ∧ Holds (load (make 5 2)) 0 (load (make 5 2)).cfg.n (make 5 2) ∧
      modeOf (load (make 5 2)).cfg (make 5 2) = .unknown) ∧
    (idleS5.cfg.admitted = true ∧ GateOpen idleS5 ∧ Holds idleS5 0 idleS5.cfg.n frameS5 ∧
      modeOf idleS5.cfg frameS5 ≠ .unknown) :=
  ⟨⟨open_load [], ⟨0, by decide, rfl⟩, mode_unwritten _ rfl⟩, ⟨open_load _, holds_frame _ (by decide +kernel), by decide +kernel⟩,
    by decide, open_load _, holds_S5, by decide +kernel⟩

/-- BUF with the preamble and the trailer written, and these bytes from OFF_SEQ on. -/
def partly (q : List Byte) : State :=
  { State.reset with buf := cells 0 [0xAA, 0x55] ++ cells 8 q ++ cells 180 [0x55, 0xAA] }

/-- BUF with the preamble and the first trailer byte written. -/
def halfTrailer : State := { State.reset with buf := cells 0 [0xAA, 0x55] ++ cells 180 [0x55] }

theorem agrees_of {s : State} {i : Nat} {x y : Byte}
    (h : ∀ k < 2, Memory.get s.buf (i + k) = none ∨ Memory.get s.buf (i + k) = [x, y][k]?) :
    AgreesWhereWritten s i [x, y] := h

theorem open_partly (q : List Byte) : GateOpen (partly q) := ⟨XState.noConfusion, rfl⟩

/-- VALIDATE on a written buffer, and each fault: an unwritten preamble, trailer, sequence and other byte, the written
ones agreeing (nothing written, then the first preamble byte, then the first trailer byte only). -/
theorem witness_Validate :
    (idleS5.cfg.admitted = true ∧ GateOpen idleS5 ∧ Holds idleS5 0 idleS5.cfg.n frameS5) ∧
    ((AgreesWhereWritten (load []) 0 [0xAA, 0x55] ∧ AgreesWhereWritten (load []) 180 [0x55, 0xAA]) ∧
      HasUnwritten (load []) 0 (load []).cfg.preLen) ∧
    ((AgreesWhereWritten (load [0xAA]) 0 [0xAA, 0x55] ∧ AgreesWhereWritten (load [0xAA]) 180 [0x55, 0xAA]) ∧
      HasUnwritten (load [0xAA]) 0 (load [0xAA]).cfg.preLen) ∧
    ((AgreesWhereWritten halfTrailer 0 [0xAA, 0x55] ∧ AgreesWhereWritten halfTrailer 180 [0x55, 0xAA]) ∧
      HasUnwritten halfTrailer 180 2) ∧
    (GateOpen (partly []) ∧ Holds (partly []) 0 2 (partly []).cfg.preamble ∧
      Holds (partly []) 180 2 (partly []).cfg.trailer ∧ HasUnwritten (partly []) 8 4) ∧
    (Holds (partly [5, 0, 0, 0]) 0 2 Config.ref.preamble ∧ Holds (partly [5, 0, 0, 0]) 180 2 Config.ref.trailer ∧
      Holds (partly [5, 0, 0, 0]) 8 4 [5, 0, 0, 0] ∧ (partly [5, 0, 0, 0]).prevValid = false ∧
      HasUnwritten (partly [5, 0, 0, 0]) 0 182) :=
  ⟨⟨by decide, open_load _, holds_S5⟩,
    ⟨⟨agrees_of (by decide), agrees_of (by decide)⟩, 0, by decide, rfl⟩,
    ⟨⟨agrees_of (by decide), agrees_of (by decide)⟩, 1, by decide, rfl⟩,
    ⟨⟨agrees_of (by decide), agrees_of (by decide)⟩, 1, by decide, rfl⟩,
    ⟨open_partly _, holds_iff.mpr (by decide), holds_iff.mpr (by decide), 0, by decide, rfl⟩,
    holds_iff.mpr (by decide), holds_iff.mpr (by decide), holds_iff.mpr (by decide), rfl, 2, by decide, rfl⟩

/-- The same last fault with a previous sequence held, and the model's choices: a wrong preamble beside an unwritten
trailer, the early outcomes (a wrong preamble; a sequence equal to the previous one; one below it), and an unknown mode
beside an unwritten byte. -/
theorem witness_UnwrittenByteChoices :
    (Holds { partly [5, 0, 0, 0] with prevValid := true, prevSeq := 4 } 8 4 [5, 0, 0, 0] ∧
      (4 : Word).toNat < orderedNat .le [5, 0, 0, 0]) ∧
    (GateOpen { State.reset with buf := cells 0 [0xAB, 0x55] ++ cells 180 [0x55, 0xAA] } ∧
      Holds { State.reset with buf := cells 0 [0xAB, 0x55] ++ cells 180 [0x55, 0xAA] } 0 2 [0xAB, 0x55] ∧
      Holds { State.reset with buf := cells 0 [0xAB, 0x55] ++ cells 180 [0x55, 0xAA] } 180 2 [0x55, 0xAA] ∧
      ([0xAB, 0x55] : List Byte) ≠ Config.ref.preamble) ∧
    (GateOpen { partly [5, 0, 0, 0] with prevValid := true, prevSeq := 5 } ∧
      Holds { partly [5, 0, 0, 0] with prevValid := true, prevSeq := 5 } 8 4 [5, 0, 0, 0] ∧
      (5 : Word).toNat = orderedNat .le [5, 0, 0, 0]) ∧
    (Holds { partly [5, 0, 0, 0] with prevValid := true, prevSeq := 6 } 8 4 [5, 0, 0, 0] ∧
      (5 : Word).toNat < (6 : Word).toNat) ∧
    (GateOpen (load [0xAB, 0x55]) ∧ HasUnwritten (load [0xAB, 0x55]) 180 2) ∧
    (GateOpen (load [0xAA, 0x55, 2]) ∧ HasUnwritten (load [0xAA, 0x55, 2]) 0 182) :=
  ⟨⟨holds_iff.mpr (by decide), by decide⟩,
    ⟨⟨by decide, rfl⟩, holds_iff.mpr (by decide), holds_iff.mpr (by decide), by decide⟩,
    ⟨⟨by decide, rfl⟩, holds_iff.mpr (by decide), by decide⟩, ⟨holds_iff.mpr (by decide), by decide⟩,
    ⟨open_load _, 0, by decide, rfl⟩, open_load _, 3, by decide, rfl⟩

/-- Each branch of R132's five steps on a frame of section 2.4. -/
theorem witness_ValidationOrder :
    ¬ (preF Config.ref (frameS5.set 0 0xAB) = Config.ref.preamble ∧
      trlF Config.ref (frameS5.set 0 0xAB) = Config.ref.trailer) ∧
    (preF Config.ref frameS5 = Config.ref.preamble ∧ trlF Config.ref frameS5 = Config.ref.trailer) ∧
    ¬ (5 : Word).toNat < (seqF Config.ref frameS5).toNat ∧ (4 : Word).toNat < (seqF Config.ref frameS5).toNat ∧
    checksum .be (zeroed Config.ref (make 5 2)) ≠ csumF Config.ref (make 5 2) ∧
    checksum .be (zeroed Config.ref frameN5) = csumF Config.ref frameN5 ∧
    (modeF Config.ref frameN5 = 0 ∧ crcF Config.ref frameN5 = 0) ∧
    crcF Config.ref (frame 5 0 [0xDF, 0x91, 0x78, 0x56, 0x34, 0x12]) ≠ 0 ∧
    (modeF Config.ref frameS5 ≠ 0 ∧ modeF Config.ref frameS5 = 1) ∧
    (modeF Config.ref (make 5 2) ≠ 0 ∧ modeF Config.ref (make 5 2) ≠ 1) := by decide +kernel

set_option maxRecDepth 100000 in
/-- Each outcome that CONSUME tells apart: accepted first, accepted next, a gap, retrograde, duplicate. -/
theorem witness_Consume :
    validate Config.ref frameN5 false 0 = (.ok, 5) ∧
    (validate Config.ref frameN5 true 4 = (.ok, 5) ∧ ¬ 1 < ((5 : Word) - 4).toNat) ∧
    (validate Config.ref frameN5 true 3 = (.ok, 5) ∧ 1 < ((5 : Word) - 3).toNat) ∧
    (validate Config.ref frameN5 true 6 = (.seq, 5) ∧ (5 : Word).toNat < (6 : Word).toNat) ∧
    (validate Config.ref frameN5 true 5 = (.seq, 5) ∧ ¬ (5 : Word).toNat < (5 : Word).toNat) ∧
    validate Config.ref (make 5 0) true 4 = (.csum, 5) := by decide +kernel

theorem witness_TallySaturates : (0xFFFFFFFF : Word) = 0xFFFFFFFF ∧ (0xFFFFFFFE : Word) ≠ 0xFFFFFFFF := by decide

theorem witness_FatalCommands : (during .fatal []).xstate = .fatal ∧ (during .guard []).xstate ≠ .fatal ∧
    ∃ t, exec .sessionReset (load []) = .next t :=
  ⟨rfl, by decide, exists_next (by decide)⟩

theorem witness_Take : GateOpen (load []) ∧ ∃ t, exec .xferStart (load []) = .next t :=
  ⟨open_load [], exists_next (by decide)⟩

theorem witness_CtrlWrite : (load []).xstate = .idle ∧ (0xFFFFFFFE : Word).getLsbD 0 = false ∧
    (1 : Word).getLsbD 0 = true ∧ (during .fatal []).xstate ≠ .idle := by decide

/-- The first and the last access of each width, to written and to unwritten bytes. -/
theorem witness_BufferAccess :
    (BufferAccepted idleS5 .four 0 ∧ Holds idleS5 0 4 [0xAA, 0x55, 1, 7]) ∧
    (BufferAccepted idleS5 .two 180 ∧ Holds idleS5 180 2 [0x55, 0xAA]) ∧
    (BufferAccepted idleS5 .one 181 ∧ Holds idleS5 181 1 [0xAA]) ∧ BufferAccepted idleS5 .four 176 ∧
    (BufferAccepted State.reset .two 0 ∧ HasUnwritten State.reset 0 2) := by
  refine ⟨⟨?_, holds_iff.mpr (by decide +kernel)⟩, ⟨?_, holds_iff.mpr (by decide +kernel)⟩,
    ⟨?_, holds_iff.mpr (by decide +kernel)⟩, ?_, ?_, 0, by decide, rfl⟩ <;> (unfold BufferAccepted; decide)

theorem witness_Phases : (during .asserted []).xstate = .asserted ∧ (during .completed []).xstate = .completed ∧
    (during .guard []).xstate = .guard ∧
    ((load []).xstate ≠ .asserted ∧ (load []).xstate ≠ .transferring ∧ (load []).xstate ≠ .completed ∧
      (load []).xstate ≠ .guard) := by decide

/-- The machine in TRANSFERRING with F_S5, either direction. -/
def sending : State := during .transferring frameS5
def receiving : State := { during .transferring [] with dir := .receive }

theorem inv_sending : Inv sending := inv_of_check (by decide +kernel)
theorem inv_receiving : Inv receiving := inv_of_check (by decide)

/-- A transmit transfer with written and with unwritten bytes, and one step of it that is not a reset. -/
theorem witness_Transmit :
    (sending.xstate = .transferring ∧ sending.dir = .transmit ∧ Holds sending 0 sending.cfg.n frameS5) ∧
    ((during .transferring []).dir = .transmit ∧ HasUnwritten (during .transferring []) 0 182) ∧
    (Inv (coming sending (.t2 [])) ∧ (coming sending (.t2 [])).owner = .dma ∧
      (∃ t, step (coming sending (.t2 [])) = .next t) ∧ (coming sending (.t2 [])).head ≠ .rst) :=
  ⟨⟨rfl, rfl, holds_iff.mpr (by decide +kernel)⟩, ⟨rfl, 0, by decide, rfl⟩, inv_of_check (by decide +kernel), rfl,
    exists_next (by decide +kernel), by decide⟩

theorem witness_Receive : receiving.xstate = .transferring ∧ receiving.dir = .receive ∧
    frameS5.length = receiving.cfg.n := by decide +kernel

theorem witness_Failure : (Inv sending ∧ ∃ t, perform .t3 sending = .next t) ∧
    (Inv receiving ∧ ∃ t, perform .t3 receiving = .next t ∧ InBufferWindow t.cfg 0x100 ∧ InBufferWindow t.cfg 0x1B5 ∧
      ∃ u, perform .t5 t = .next u) := by
  refine ⟨⟨inv_sending, exists_next (by decide +kernel)⟩, inv_receiving, receiving.enterFatal, rfl, ?_, ?_,
    exists_next (by decide)⟩ <;> (unfold InBufferWindow; decide)

/-- A step in which XSTATE, OWNER and CS_N change, of each kind, from a state of the invariant. -/
theorem witness_BundleSteps :
    (Inv (coming (load []) (.bus (Access.command 6))) ∧
      ∃ t, step (coming (load []) (.bus (Access.command 6))) = .next t ∧ t.xstate = .asserted ∧ t.csN = false ∧
        t.owner = .dma) ∧
    (Inv (coming (during .guard []) .t5) ∧
      ∃ t, step (coming (during .guard []) .t5) = .next t ∧ t.xstate = .idle ∧ t.csN = true ∧ t.owner = .cpu) ∧
    (∃ t, step (coming (during .fatal []) .rst) = .next t ∧ t.csN = true ∧ t.owner = .cpu) ∧
    ∃ t, perform .t3 sending = .next t :=
  ⟨⟨inv_of_check (by decide), _, next_of rfl, rfl, rfl, rfl⟩,
    ⟨inv_of_check (by decide), _, next_of rfl, rfl, rfl, rfl⟩, ⟨_, next_of rfl, rfl, rfl⟩,
    exists_next (by decide +kernel)⟩

theorem witness_Fatal : (during .fatal []).xstate = .fatal ∧ (during .fatal []).owner = .dma ∧
    ((coming (during .fatal []) .t4).head ≠ .rst ∧ ∃ t, step (coming (during .fatal []) .t4) = .next t) ∧
    ∃ t, step (coming (during .fatal []) .rst) = .next t ∧ t.xstate ≠ .fatal :=
  ⟨rfl, rfl, ⟨by decide, exists_next (by decide)⟩, _, next_of rfl, by decide⟩

/-- States of the invariant in each of R189's three classes. -/
theorem witness_Ownership : Inv idleS5 ∧ Inv sending ∧ (Inv (during .fatal []) ∧ (during .fatal []).xstate ≠ .idle) ∧
    InBufferWindow (during .fatal []).cfg 0x1B5 := by
  refine ⟨inv_of_check (by decide +kernel), inv_sending, ⟨inv_of_check (by decide), by decide⟩, ?_⟩
  unfold InBufferWindow; decide

theorem witness_Isolation : (coming sending (.bus ⟨.read, 1, 0x100, 0⟩)).cfg.admitted = true ∧
    (coming sending (.bus ⟨.read, 1, 0x100, 0⟩)).owner = .dma := by decide

/-- A transfer's five inputs, in both directions. -/
def wholeTransfer (s : State) (rx : List Byte) : State :=
  { s with inputs := [.bus (Access.command 6), .t1, .t2 rx, .t4, .t5] }

theorem witness_SuccessfulTransfer :
    (Inv (wholeTransfer idleS5 []) ∧ (wholeTransfer idleS5 []).xstate = .idle ∧
      Holds (wholeTransfer idleS5 []) 0 182 frameS5) ∧
    (Inv (wholeTransfer { load [] with dir := .receive } frameS5) ∧
      (wholeTransfer { load [] with dir := .receive } frameS5).dir ≠ .transmit) :=
  ⟨⟨inv_of_check (by decide +kernel), rfl, holds_iff.mpr (by decide +kernel)⟩, inv_of_check (by decide), by decide⟩

theorem witness_ResetAbandons : sending.xstate ∈ [XState.asserted, .transferring, .completed, .guard] ∧
    ∃ t, perform .rst sending = .next t ∧ (∃ u, perform (.t2 frameS5) t = .next u) ∧ (∃ u, perform .t3 t = .next u) ∧
      ∃ u, perform .t5 t = .next u :=
  ⟨by decide, sending.rst, rfl, exists_next (by decide), exists_next (by decide), exists_next (by decide)⟩

/-- A held bundle: one step of the run, and then a failed transfer. -/
theorem witness_SecondTake : (GateOpen (load []) ∧ ∃ t, exec .xferStart (load []) = .next t) ∧
    (during .asserted []).owner = .dma ∧
    ∃ u, RunWithoutGive { during .asserted [] with inputs := [.t1, .t3] } u ∧ u.xstate = .fatal := by
  refine ⟨⟨open_load [], exists_next (by decide)⟩, rfl,
    { during .fatal [] with irqStatus := 0b10 }, ?_, rfl⟩
  refine .next (t := { during .transferring [] with inputs := [.t3] }) (.next .here (next_of (by decide)) ?_)
    (next_of (by decide)) ?_ <;> (unfold GivesBack; decide)

/-- Steps that change the tracker and RESULT: CONSUME, SESSION_RESET, CLEAR_ERRS. -/
theorem witness_Writers :
    (∃ t, step (coming (load frameN5) (.bus (Access.command 5))) = .next t ∧ t.prevSeq ≠ (load frameN5).prevSeq ∧
      t.result ≠ (load frameN5).result) ∧
    (∃ t, step (coming { load [] with prevValid := true, errCount := 1 } (.bus (Access.command 7))) = .next t ∧
      t.prevValid = false) ∧
    (∃ t, step (coming { load [] with prevValid := true, errCount := 1 } (.bus (Access.command 8))) = .next t ∧
      t.errCount ≠ 1) := by
  refine ⟨?_, ⟨_, next_of rfl, rfl⟩, _, next_of rfl, by decide⟩
  have h : ((next? (step (coming (load frameN5) (.bus (Access.command 5))))).map fun t =>
      decide (t.prevSeq ≠ (load frameN5).prevSeq ∧ t.result ≠ (load frameN5).result)) = some true := by decide +kernel
  obtain ⟨t, ht, hd⟩ := Option.map_eq_some_iff.mp h
  exact ⟨t, next_of ht, of_decide_eq_true hd⟩

/-- The machine with the input x coming, which ends with the command error e. -/
def ErrorComing (s : State) (x : Input) (e : CmdErr) : Prop :=
  (coming s x).cfg.admitted = true ∧ (coming s x).inputs = [x] ∧ CommandErrorOf (coming s x) x e

/-- Each command error, at the least and the greatest command word of its range. -/
theorem witness_CommandErrors :
    (ErrorComing (load []) (.bus (Access.command 9)) .illegal ∧
      ErrorComing (load []) (.bus (Access.command 0xFFFFFFFF)) .illegal) ∧
    (ErrorComing (during .fatal []) (.bus (Access.command 1)) .fatal ∧
      ErrorComing (during .fatal []) (.bus (Access.command 8)) .fatal) ∧
    (ErrorComing (during .guard []) (.bus (Access.command 1)) .busy ∧
      ErrorComing (during .guard []) (.bus (Access.command 6)) .busy) ∧
    (ErrorComing { load [] with len := 0 } (.bus (Access.command 1)) .badLen ∧
      ErrorComing { load [] with len := 183 } (.bus (Access.command 2)) .badLen) ∧
    ErrorComing (load (make 5 2)) (.bus (Access.command 3)) .badMode ∧
    ErrorComing (during .fatal []) (.bus (Access.writeReg .ctrl 1)) .busy :=
  ⟨⟨⟨by decide, rfl, .illegal _ (by decide)⟩, ⟨by decide, rfl, .illegal _ (by decide)⟩⟩,
    ⟨⟨by decide, rfl, .fatal _ (by decide) rfl⟩, ⟨by decide, rfl, .fatal _ (by decide) rfl⟩⟩,
    ⟨⟨by decide, rfl, .busy _ (by decide) (by decide) rfl⟩, ⟨by decide, rfl, .busy _ (by decide) (by decide) rfl⟩⟩,
    ⟨⟨by decide, rfl, .badLen _ (.inl rfl) ⟨XState.noConfusion, rfl⟩ (.inl rfl)⟩,
      ⟨by decide, rfl, .badLen _ (.inr rfl) ⟨XState.noConfusion, rfl⟩ (.inr (by decide))⟩⟩,
    ⟨by decide, rfl, .badMode (make 5 2) ⟨XState.noConfusion, rfl⟩ (holds_iff.mpr (by decide +kernel)) (by decide +kernel)⟩,
    ⟨by decide, rfl, .ctrl 1 (by decide)⟩⟩

/-- A step without a command error, with both error fields set. -/
theorem witness_Sticky :
    (∃ t, step (coming { load [] with ownErr := true, cmdErr := .badLen } .t1) = .next t) ∧
    (∀ e, ¬ CommandErrorOf (coming { load [] with ownErr := true, cmdErr := .badLen } .t1) .t1 e) ∧
    (coming (load []) .t1).head ≠ .bus (Access.command 8) ∧ (coming (load []) .t1).head ≠ .rst := by
  refine ⟨exists_next (by decide), fun e h => ?_, by decide, by decide⟩
  cases h

theorem witness_ChecksumLengths : (1 ≤ [(0 : Byte)].length ∧ [(0 : Byte)].length ≤ 3840) ∧
    ((List.replicate 3840 (0xFF : Byte)).length = 3840) ∧ (0 < [(0 : Byte)].length ∧ 7 < 8) :=
  ⟨by decide, List.length_replicate, by decide⟩

theorem isFrame_of {F : List Byte} (h : F.length = 182) : IsFrame Config.ref F := ⟨by decide, h⟩

/-- Two images that differ in the integrity fields only. -/
theorem witness_Outside : IsFrame Config.ref frameS5 ∧ IsFrame Config.ref (make 5 1) ∧
    ∀ j, OutsideIntegrity Config.ref j → frameS5[j]? = (make 5 1)[j]? := by
  have h : ∀ j < 182, ¬ (14 ≤ j ∧ j < 20) → frameS5[j]? = (make 5 1)[j]? := by decide +kernel
  have h1 : frameS5.length = 182 := by decide +kernel
  have h2 : (make 5 1).length = 182 := by decide +kernel
  refine ⟨isFrame_of h1, isFrame_of h2, fun j hj => ?_⟩
  obtain ⟨hc, hr⟩ := hj
  simp only [Config.ref] at hc hr
  rcases lt_or_ge j 182 with hj | hj
  · exact h j hj (by omega)
  · rw [List.getElem?_eq_none (by omega), List.getElem?_eq_none (by omega)]

theorem witness_FieldGetAndPut : 16 + 4 ≤ frameS5.length ∧ 180 + 2 ≤ frameS5.length ∧ Config.ref.hdrOrder = .le ∧
    ({ Config.ref with hdrOrder := .be } : Config).hdrOrder = .be := by decide +kernel

theorem witness_SealThenValidate : idleS5.cfg.admitted = true ∧ GateOpen idleS5 ∧ Holds idleS5 0 idleS5.cfg.n frameS5 ∧
    structOk idleS5.cfg frameS5 = true ∧ modeOf idleS5.cfg frameS5 ≠ .unknown ∧ idleS5.prevValid = false ∧
    Inv idleS5 ∧ (4 : Word).toNat < (seqF Config.ref frameS5).toNat :=
  ⟨by decide, open_load _, holds_S5, by decide +kernel, by decide +kernel, rfl, inv_of_check (by decide +kernel),
    by decide +kernel⟩

set_option maxRecDepth 100000 in
/-- A sealed Safety frame and a sealed Normal frame. -/
theorem witness_Tampering : (IsSealed Config.ref frameS5 ∧ modeOf Config.ref frameS5 = .safety) ∧
    (IsSealed Config.ref frameN5 ∧ modeOf Config.ref frameN5 = .normal) ∧ crcF Config.ref frameS5 ≠ 0 := by
  refine ⟨⟨⟨⟨?_, ?_⟩, ?_, ?_, ?_, ?_⟩, ?_⟩, ⟨⟨⟨?_, ?_⟩, ?_, ?_, ?_, ?_⟩, ?_⟩, ?_⟩ <;>
    decide +kernel

/-- A changed first preamble byte and a changed last trailer byte. -/
theorem witness_TamperedStructure : (frameS5.set 0 0xAB).length = Config.ref.n ∧ 0 < Config.ref.preLen ∧
    (frameS5.set 0 0xAB)[0]? ≠ frameS5[0]? ∧ (frameS5.set 181 0xAB).length = Config.ref.n ∧
    Config.ref.n - Config.ref.trlLen ≤ 181 ∧ (frameS5.set 181 0xAB)[181]? ≠ frameS5[181]? := by decide +kernel

theorem witness_WrapAround : GateOpen { load frameN5 with prevValid := true, prevSeq := 0xFFFFFFFF } ∧
    Holds { load frameN5 with prevValid := true, prevSeq := 0xFFFFFFFF } 0 182 frameN5 ∧
    structOk Config.ref frameN5 = true ∧ seqF Config.ref frameN5 ≠ 0xFFFFFFFF ∧
    (structOk Config.ref (([0xAA, 0x55, 0, 7, 0, 0, 0, 0, 0xFF, 0xFF, 0xFF, 0xFF] : List Byte) ++ frameN5.drop 12) = true ∧
      seqF Config.ref (([0xAA, 0x55, 0, 7, 0, 0, 0, 0, 0xFF, 0xFF, 0xFF, 0xFF] : List Byte) ++ frameN5.drop 12) =
        0xFFFFFFFF) :=
  ⟨⟨XState.noConfusion, rfl⟩, holds_iff.mpr (by decide +kernel), by decide +kernel, by decide +kernel,
    by decide +kernel⟩

end Sys2Proof.Tests
end

section
/-! SUPPORT. The clauses of spec/00_scope.md R13, each read off its own check of the configuration, and O8. -/

namespace Sys2Proof.Machine

/-- Two nonempty ranges share no index exactly when one ends before the other begins. -/
theorem ranges_disjoint_iff {a m b n : Nat} (hm : 0 < m) (hn : 0 < n) :
    (a + m ≤ b ∨ b + n ≤ a) ↔ ∀ x, ¬((a ≤ x ∧ x < a + m) ∧ (b ≤ x ∧ x < b + n)) := by
  constructor
  · intro h x
    omega
  · intro h
    have hmax := h (max a b)
    omega

/-- With W_MODE positive, every field the FIU reads is nonempty. -/
theorem fields_width_pos {c : Config} (hw : 0 < c.wMode) {f : Nat × Nat} (hf : f ∈ c.fields) : 0 < f.2 := by
  simp only [Config.fields, List.mem_cons, List.not_mem_nil, or_false] at hf
  rcases hf with rfl | rfl | rfl | rfl
  · exact hw
  all_goals simp

theorem sizesOk_iff (c : Config) : c.sizesOk = true ↔
    (1 ≤ c.preLen ∧ 1 ≤ c.trlLen) ∧ c.preLen + c.trlLen + 160 ≤ c.n ∧ c.n ≤ 3840 := by
  simp only [Config.sizesOk, Bool.and_eq_true, decide_eq_true_eq, and_assoc]
  rw [Config.payloadSize]

/-- R13(b) with its own upper end, N − TRL_LEN − 160, which R13(a) keeps from being cut off at 0. -/
theorem fieldsInside_iff {c : Config} (ha : c.preLen + c.trlLen + 160 ≤ c.n) : c.fieldsInside = true ↔
    ∀ f ∈ c.fields, c.preLen ≤ f.1 ∧ f.1 + f.2 ≤ c.n - c.trlLen - 160 := by
  simp only [Config.fieldsInside, List.all_eq_true, Bool.and_eq_true, decide_eq_true_eq]
  refine forall₂_congr fun f _ => and_congr_right fun _ => ?_
  rw [Config.payloadSize]
  omega

theorem fieldsDisjoint_iff {c : Config} (hw : 0 < c.wMode) : c.fieldsDisjoint = true ↔
    c.fields.Pairwise fun f g => ∀ x, ¬((f.1 ≤ x ∧ x < f.1 + f.2) ∧ (g.1 ≤ x ∧ x < g.1 + g.2)) := by
  rw [Config.fieldsDisjoint, decide_eq_true_eq]
  exact List.Pairwise.iff_of_mem fun hf hg =>
    ranges_disjoint_iff (fields_width_pos hw hf) (fields_width_pos hw hg)

theorem fieldsOrdered_iff (c : Config) : c.fieldsOrdered = true ↔
    c.offMode < c.offSeq ∧ c.offSeq < c.offCsum ∧ c.offCsum < c.offCrc := by
  simp only [Config.fieldsOrdered, Bool.and_eq_true, decide_eq_true_eq, and_assoc]

theorem modesOk_iff (c : Config) : c.modesOk = true ↔
    (c.wMode = 1 ∨ c.wMode = 2 ∨ c.wMode = 4) ∧
      c.modeNormal ≠ c.modeSafety ∧ c.modeNormal < 2 ^ (8 * c.wMode) ∧ c.modeSafety < 2 ^ (8 * c.wMode) := by
  simp only [Config.modesOk, Bool.and_eq_true, Bool.or_eq_true, beq_iff_eq, bne_iff_ne, decide_eq_true_eq,
    and_assoc, or_assoc]

/-- R13 clause by clause: the sizes make (b)'s upper end a true difference, and W_MODE makes (c)'s ranges nonempty. -/
theorem admitted_iff (c : Config) : c.admitted = true ↔
    (1 ≤ c.preLen ∧ 1 ≤ c.trlLen ∧ (c.wMode = 1 ∨ c.wMode = 2 ∨ c.wMode = 4)) ∧
    (c.preLen + c.trlLen + 160 ≤ c.n ∧ c.n ≤ 3840) ∧
    (∀ f ∈ c.fields, c.preLen ≤ f.1 ∧ f.1 + f.2 ≤ c.n - c.trlLen - 160) ∧
    (c.fields.Pairwise fun f g => ∀ x, ¬((f.1 ≤ x ∧ x < f.1 + f.2) ∧ (g.1 ≤ x ∧ x < g.1 + g.2))) ∧
    (c.offMode < c.offSeq ∧ c.offSeq < c.offCsum ∧ c.offCsum < c.offCrc) ∧
    (c.modeNormal ≠ c.modeSafety ∧ c.modeNormal < 2 ^ (8 * c.wMode) ∧ c.modeSafety < 2 ^ (8 * c.wMode)) := by
  have wMode_pos (hw : c.wMode = 1 ∨ c.wMode = 2 ∨ c.wMode = 4) : 0 < c.wMode := by omega
  simp only [Config.admitted, Bool.and_eq_true, sizesOk_iff, fieldsOrdered_iff, modesOk_iff]
  constructor
  · rintro ⟨⟨⟨⟨⟨⟨hp, ht⟩, ha⟩, hb⟩, hc⟩, hd⟩, hw, he⟩
    exact ⟨⟨hp, ht, hw⟩, ha, (fieldsInside_iff ha.1).mp hb, (fieldsDisjoint_iff (wMode_pos hw)).mp hc, hd, he⟩
  · rintro ⟨⟨hp, ht, hw⟩, ha, hb, hc, hd, he⟩
    exact ⟨⟨⟨⟨⟨⟨hp, ht⟩, ha⟩, (fieldsInside_iff ha.1).mpr hb⟩, (fieldsDisjoint_iff (wMode_pos hw)).mpr hc⟩, hd⟩, hw, he⟩

theorem step_of_not_admitted {s : State} (h : s.cfg.admitted = false) : step s = .refused .configNotAdmitted := by
  rw [step, h, if_neg Bool.false_ne_true]

/-- Settles O8: the check of a configuration is R13 clause by clause, and a step refuses what fails it. -/
theorem admittedConfigurations : Obligations.AdmittedConfigurations :=
  ⟨admitted_iff, fun _ => step_of_not_admitted⟩

end Sys2Proof.Machine
end

section
/-! SUPPORT. A whole step as a case of StepCase: what `perform_case` says, up to the choice of the next input. -/

namespace Sys2Proof.Machine

/-- A step does what its next input does, in the state with some other coming inputs and draws. -/
theorem step_case {s t : State} (h : step s = .next t) :
    ∃ rest d, StepCase { s with inputs := rest, draws := d } s.head t := by
  have hc : StepCase (nextInput s).2 s.head t := perform_case (step_next h).2
  rcases nextInput_cases s with ⟨rest, -, hn⟩ | ⟨-, hn⟩ <;> rw [hn] at hc
  · exact ⟨rest, s.draws, hc⟩
  · exact ⟨s.inputs, s.draws + 1, hc⟩

end Sys2Proof.Machine
end

section
/-! SUPPORT. Who writes chip-select and the owner (spec/10_state.md R22, R23), and O38. -/

namespace Sys2Proof.Machine

/-- CS_N and OWNER stay, or the take, the give-back or reset writes both. -/
theorem StepCase.bundle_cases {s t : State} {x : Input} (h : StepCase s x t) :
    (t.csN = s.csN ∧ t.owner = s.owner) ∨
    (IsXferStart x ∧ t.csN = false ∧ t.owner = .dma) ∨
    (x = .t5 ∧ s.xstate = .guard ∧ t.csN = true ∧ t.owner = .cpu) ∨
    (x = .rst ∧ t.csN = true ∧ t.owner = .cpu) := by
  cases h with
  | xferStart hx ho => exact .inr (.inl ⟨rfl, rfl, rfl⟩)
  | t5 hx => exact .inr (.inr (.inl ⟨rfl, hx, rfl, rfl⟩))
  | rst => exact .inr (.inr (.inr ⟨rfl, rfl, rfl⟩))
  | _ => exact .inl (by simp)

theorem step_csN_writers {s t : State} (h : step s = .next t) (hne : t.csN ≠ s.csN) :
    (IsXferStart s.head ∧ t.csN = false) ∨ (s.head = .t5 ∧ s.xstate = .guard ∧ t.csN = true) ∨
      (s.head = .rst ∧ t.csN = true) := by
  obtain ⟨rest, d, hc⟩ := step_case h
  rcases hc.bundle_cases with ⟨hcs, -⟩ | ⟨hx, hcs, -⟩ | ⟨hx, hg, hcs, -⟩ | ⟨hx, hcs, -⟩
  · exact absurd hcs hne
  · exact .inl ⟨hx, hcs⟩
  · exact .inr (.inl ⟨hx, hg, hcs⟩)
  · exact .inr (.inr ⟨hx, hcs⟩)

theorem step_owner_writers {s t : State} (h : step s = .next t) (hne : t.owner ≠ s.owner) :
    (IsXferStart s.head ∧ t.owner = .dma) ∨ (s.head = .t5 ∧ s.xstate = .guard ∧ t.owner = .cpu) ∨
      (s.head = .rst ∧ t.owner = .cpu) := by
  obtain ⟨rest, d, hc⟩ := step_case h
  rcases hc.bundle_cases with ⟨-, ho⟩ | ⟨hx, -, ho⟩ | ⟨hx, hg, -, ho⟩ | ⟨hx, -, ho⟩
  · exact absurd ho hne
  · exact .inl ⟨hx, ho⟩
  · exact .inr (.inl ⟨hx, hg, ho⟩)
  · exact .inr (.inr ⟨hx, ho⟩)

theorem exec_xferStart_of_open {s : State} (h : GateOpen s) :
    exec .xferStart s = .next ((s.setBundle .asserted .dma false).reply .accepted) :=
  (exec_xferStart s).trans (gate_of_open h _)

theorem stepT5_of_guard {s : State} (h : s.xstate = .guard) :
    stepT5 s = .next ((s.setBundle .idle .cpu true).raiseIrq 0b01) := if_pos h

theorem stepT3_of_transferring {s : State} (h : s.xstate = .transferring) : stepT3 s = .next s.enterFatal := if_pos h

/-- Settles O38: the writers of the two elements from the step cases, and what each of the four steps writes. -/
theorem chipSelectAndOwnerWriters : Obligations.ChipSelectAndOwnerWriters := by
  refine ⟨fun _ _ => step_csN_writers, fun _ _ => step_owner_writers, fun s t hg h => ?_, fun s t hx h => ?_,
    fun s t h => ?_, fun s t hx h => ?_⟩
  · cases (exec_xferStart_of_open hg).symm.trans h; exact ⟨rfl, rfl⟩
  · cases (stepT5_of_guard hx).symm.trans h; exact ⟨rfl, rfl⟩
  · cases h; exact ⟨rfl, rfl⟩
  · cases (stepT3_of_transferring hx).symm.trans h; simp

end Sys2Proof.Machine
end

section
/-! SUPPORT. Who writes the tracker (spec/10_state.md R26), and O49. -/

namespace Sys2Proof.Machine

/-- CONSUME sets PREV_VALID on acceptance and never clears it. -/
theorem State.track_prevValid (s : State) (r : Reason) (q : Word) :
    (s.track r q).prevValid = (decide (r = .ok) || s.prevValid) := by
  unfold State.track
  split
  · simp [*]
  · split <;> simp [*]

/-- CONSUME tallies at most one error. -/
theorem State.track_errCount (s : State) (r : Reason) (q : Word) :
    (s.track r q).errCount = s.errCount ∨ (s.track r q).errCount = satInc s.errCount := by
  unfold State.track
  split
  · split
    · exact .inr rfl
    · exact .inl rfl
  · split <;> exact .inr rfl

/-- The tracker stays, or one of its four writers writes its part of it. -/
theorem StepCase.tracker_cases {s t : State} {x : Input} (h : StepCase s x t) :
    (t.prevValid = s.prevValid ∧ t.prevSeq = s.prevSeq ∧ t.errCount = s.errCount) ∨
    (x = .bus (Access.command 5) ∧ t.prevValid = (decide (t.lastReason = .ok) || s.prevValid) ∧
      (t.errCount = s.errCount ∨ t.errCount = satInc s.errCount)) ∨
    (x = .bus (Access.command 7) ∧ t.prevValid = false ∧ t.errCount = s.errCount) ∨
    (x = .bus (Access.command 8) ∧ t.prevValid = s.prevValid ∧ t.prevSeq = s.prevSeq ∧ t.errCount = 0) ∨
    (x = .rst ∧ t.prevValid = false ∧ t.errCount = 0) := by
  cases h with
  | consume r q ho hv =>
    refine .inr (.inl ⟨rfl, ?_, (s.setOutcome r q).track_errCount r q⟩)
    simp [State.track_prevValid]
  | sessionReset => exact .inr (.inr (.inl ⟨rfl, rfl, rfl⟩))
  | clearErrs => exact .inr (.inr (.inr (.inl ⟨rfl, rfl, rfl, rfl⟩)))
  | rst => exact .inr (.inr (.inr (.inr ⟨rfl, rfl, rfl⟩)))
  | _ => exact .inl (by simp)

/-- Settles O49: each clause is read off the five cases of what a step does to the tracker. -/
theorem trackerWriters : Obligations.TrackerWriters := by
  intro s t h
  obtain ⟨rest, d, hc⟩ := step_case h
  rcases hc.tracker_cases with ⟨hv, hq, he⟩ | ⟨hx, hv, he⟩ | ⟨hx, hv, he⟩ | ⟨hx, hv, hq, he⟩ | ⟨hx, hv, he⟩
  · simp +contextual [hv, hq, he]
  · refine ⟨fun _ => .inl hx, fun hne => .inl ⟨hx, he.resolve_left hne⟩, fun h0 h1 => ⟨hx, ?_⟩, fun h1 h0 => ?_⟩
    · simpa [hv, h0] using h1
    · simp [hv, h1] at h0
  · simp [hx, hv, he]
  · simp +contextual [hx, hv, hq, he]
  · simp [hx, hv, he]

end Sys2Proof.Machine
end

section
/-! SUPPORT. The reset values (spec/10_state.md R52), and O46. -/

namespace Sys2Proof.Machine

/-- R13(a) bounds N by 3840, so LEN holds it whole. -/
theorem init_len_toNat {c : Config} (h : c.admitted = true) : (State.init c).len.toNat = c.n := by
  obtain ⟨-, -, -, hn⟩ := admitted_sizes h
  exact Nat.mod_eq_of_lt (by omega)

theorem init_irq (c : Config) : (State.init c).irq = false := by
  simp [State.irq, State.init]

theorem init_statusWord (c : Config) : statusWord (State.init c) = 0x00000010 := by
  simp only [statusWord, State.init]
  decide

/-- Settles O46: R52's table, with LEN, STATUS and irq from their lemmas and every other element by its value. -/
theorem resetValues : Obligations.ResetValues := fun c =>
  ⟨fun _ => rfl, rfl, rfl, rfl, rfl, rfl, rfl, rfl, rfl, rfl, rfl, rfl, rfl, rfl, rfl, init_len_toNat, rfl, rfl,
    init_irq c, init_statusWord c⟩

end Sys2Proof.Machine
end

section
/-! SUPPORT. Which CPU accesses end with a bus error (spec/20_memory.md R64): the decoder and the refused accesses
region by region (R60), the answer to each, and O7. -/

namespace Sys2Proof.Machine

/-! ### The two next states of a bus error (R271) -/

/-- Case (f): OWN_ERR is set. -/
theorem State.busError_of_dma {s : State} {off : Offset} (h : InBufferWindow s.cfg off ∧ s.owner = .dma) :
    s.busError off = { s with resp := .busError, ownErr := true } := by
  simp [State.busError, inWindow_iff.mpr h.1, h.2]

/-- Every other case: OWN_ERR stays. -/
theorem State.busError_of_not_dma {s : State} {off : Offset} (h : ¬(InBufferWindow s.cfg off ∧ s.owner = .dma)) :
    s.busError off = { s with resp := .busError } := by
  have hf : (inWindow s.cfg off && s.owner == .dma) = false := by simpa [inWindow_iff] using h
  rw [State.busError, hf, Bool.or_false]

/-! ### The access, once it is decoded -/

theorem performAccess_of_ok {a : Access} {i : Instr} (hd : decode a = .ok i) (s : State) :
    performAccess a s = exec i s := by rw [performAccess, hd]

theorem performAccess_of_error {a : Access} {r : Reject} (hd : decode a = .error r) (s : State) :
    performAccess a s = .next (rejectAccess r a s) := by rw [performAccess, hd]

theorem decode_fetch {a : Access} (hf : a.dir = .fetch) : decode a = .error .instructionFetch := by
  rw [decode, hf]

/-! ### The register region -/

theorem reg_offset_aligned (r : Reg) : r.offset.toNat % 4 = 0 := by cases r <;> rfl

/-- R34 fills the register region: every multiple of 4 in it is the offset of a register. -/
theorem reg_at_aligned {off : Offset} (hr : off.toNat < regionEnd) (ha : off.toNat % 4 = 0) :
    ∃ r, Reg.ofOffset? off = some r := by
  have table : ∀ k < regionEnd, k % 4 = 0 → (Reg.ofOffset? (BitVec.ofNat 12 k)).isSome = true := by decide
  have hsome := table off.toNat hr ha
  rw [BitVec.ofNat_toNat, BitVec.setWidth_eq] at hsome
  exact Option.isSome_iff_exists.mp hsome

/-- Case (b) is the decoder's. -/
theorem decode_of_registerForm {a : Access} (hf : a.dir ≠ .fetch) (hr : a.off.toNat < regionEnd)
    (hb : ¬(a.width = 4 ∧ a.off.toNat % 4 = 0)) : decode a = .error .registerForm := by
  have width_ne (r : Reg) (h : Reg.ofOffset? a.off = some r) : a.width ≠ 4 := fun hw =>
    hb ⟨hw, reg_at_offset h ▸ reg_offset_aligned r⟩
  unfold decode
  cases hd : a.dir with
  | fetch => exact absurd hd hf
  | read => cases ho : Reg.ofOffset? a.off with
    | none => simp [hr]
    | some r => simp [hr, width_ne r ho]
  | write => cases ho : Reg.ofOffset? a.off with
    | none => simp [hr]
    | some r => simp [hr, width_ne r ho]

/-- A well-formed register access is a read of a register or a write to one. -/
theorem decode_of_register {a : Access} (hf : a.dir ≠ .fetch) (hr : a.off.toNat < regionEnd)
    (hw : a.width = 4) (ha : a.off.toNat % 4 = 0) :
    ∃ r, decode a = .ok (.rReg r) ∨ decode a = decodeRegWrite r a.data := by
  obtain ⟨r, ho⟩ := reg_at_aligned hr ha
  refine ⟨r, ?_⟩
  unfold decode
  cases hd : a.dir with
  | fetch => exact absurd hd hf
  | read => exact .inl (by simp [hr, ho, hw])
  | write => exact .inr (by simp [hr, ho, hw])

/-- A write that decodes to a command or a register write is accepted, also where it ends with a command error (R272). -/
theorem exec_regWrite_resp {r : Reg} {v : Word} {i : Instr} {s t : State} (hd : decodeRegWrite r v = .ok i)
    (h : exec i s = .next t) : t.resp = .accepted := by
  cases r with
  | cmd =>
    rcases decodeCmd_ok hd with ⟨-, rfl⟩ | ⟨-, rfl⟩ | ⟨-, rfl⟩ | ⟨-, rfl⟩ | ⟨-, rfl⟩ | ⟨-, rfl⟩ | ⟨-, rfl⟩ |
      ⟨-, rfl⟩ | ⟨-, rfl⟩
    · cases execNop_next h; rfl
    · rcases execCsum_next h with ⟨e, -, rfl⟩ | ⟨-, bs, -, rfl⟩ <;> rfl
    · rcases execCrc_next h with ⟨e, -, rfl⟩ | ⟨-, bs, -, rfl⟩ <;> rfl
    · rcases execSeal_next h with ⟨e, -, rfl⟩ | ⟨F, -, -, -, rfl⟩ <;> rfl
    · rcases execValidate_next h with ⟨e, -, rfl⟩ | ⟨-, q, seq, -, rfl⟩ <;> rfl
    · rcases execConsume_next h with ⟨e, -, rfl⟩ | ⟨-, q, seq, -, rfl⟩ <;> rfl
    · rcases execXferStart_next h with ⟨e, -, rfl⟩ | ⟨-, -, rfl⟩ <;> rfl
    · rcases execSessionReset_next h with ⟨e, -, rfl⟩ | rfl <;> rfl
    · rcases execClearErrs_next h with ⟨e, -, rfl⟩ | rfl <;> rfl
  | ctrl =>
    cases hd
    rcases execWCtrl_next h with ⟨-, rfl⟩ | ⟨-, rfl⟩ <;> rfl
  | _ => cases hd; cases h; rfl

/-- The only writes to a register that do not decode are illegal command words. -/
theorem decodeRegWrite_error {r : Reg} {v : Word} {e : Reject} (hd : decodeRegWrite r v = .error e) :
    e = .illegalReservedBits ∨ e = .illegalOpcode := by
  cases r with
  | cmd =>
    change decodeCmd v = .error e at hd
    unfold decodeCmd at hd
    split at hd
    · cases hd; exact .inl rfl
    · split at hd <;> cases hd
      exact .inr rfl
  | _ => cases hd

/-- A well-formed register access never answers with a bus error. -/
theorem performAccess_register_resp {a : Access} {s t : State} (hf : a.dir ≠ .fetch) (hr : a.off.toNat < regionEnd)
    (hw : a.width = 4) (ha : a.off.toNat % 4 = 0) (h : performAccess a s = .next t) : t.resp ≠ .busError := by
  obtain ⟨r, hd | hd⟩ := decode_of_register hf hr hw ha
  · rw [performAccess_of_ok hd] at h
    cases h
    exact BusResponse.noConfusion
  · rcases performAccess_next h with ⟨i, hi, he⟩ | ⟨e, hi, rfl⟩
    · rw [exec_regWrite_resp (hd ▸ hi) he]
      exact BusResponse.noConfusion
    · obtain rfl | rfl := decodeRegWrite_error (hd ▸ hi) <;> exact BusResponse.noConfusion

/-! ### The reserved region between the registers and the buffer -/

theorem decode_of_reserved {a : Access} (hf : a.dir ≠ .fetch) (hr : regionEnd ≤ a.off.toNat)
    (hb : a.off.toNat < bufBase) : decode a = .error .reservedOffset := by
  unfold decode
  cases hd : a.dir with
  | fetch => exact absurd hd hf
  | read => simp [hr.not_gt, hb]
  | write => simp [hr.not_gt, hb]

/-! ### The offsets from the buffer window on -/

theorem width_bytes_of_ofNat? {k : Nat} {n : Width} (h : Width.ofNat? k = some n) : n.bytes = k := by
  unfold Width.ofNat? at h
  split at h <;> cases h <;> rfl

theorem width_ofNat?_eq_none_iff {k : Nat} : Width.ofNat? k = none ↔ ¬(k = 1 ∨ k = 2 ∨ k = 4) := by
  unfold Width.ofNat?
  split <;> simp_all

/-- From the window's first offset on, the decoder asks for the width and then for the alignment. -/
theorem decode_of_bufBase_le {a : Access} (hf : a.dir ≠ .fetch) (hb : bufBase ≤ a.off.toNat) :
    (Width.ofNat? a.width = none → decode a = .error .bufferWidth) ∧
    ∀ n, Width.ofNat? a.width = some n →
      (bufferForm n a.off = false → decode a = .error .misaligned) ∧
      (bufferForm n a.off = true → decode a = .ok (.rBuf n a.off) ∨ ∃ v, decode a = .ok (.wBuf n a.off v)) := by
  have hr : ¬a.off.toNat < regionEnd := (lt_of_lt_of_le (by decide) hb).not_gt
  unfold decode
  cases hd : a.dir with
  | fetch => exact absurd hd hf
  | read => simp +contextual [hr, hb.not_gt]
  | write => simp +contextual [hr, hb.not_gt]

/-- What the machine checks of an accepted buffer access covers what the decoder checks. -/
theorem bufferForm_of_accessOk {s : State} {n : Width} {off : Offset} (h : bufferAccessOk s n off = true) :
    bufferForm n off = true := by
  obtain ⟨⟨hb, -⟩, ha, -⟩ := bufferAccessOk_iff.mp h
  simp [bufferForm, bufBase, hb, ha]

theorem bufferAccess_of_not_ok {s : State} {n : Width} {off : Offset} (h : bufferAccessOk s n off = false)
    (k : Nat → Result) : bufferAccess s n off k = .next (s.busError off) := by
  rw [bufferAccess, h, if_neg Bool.false_ne_true]

theorem bufferAccess_of_ok {s : State} {n : Width} {off : Offset} (h : bufferAccessOk s n off = true)
    (k : Nat → Result) : bufferAccess s n off k = k (bufIndex off) := if_pos h

theorem exec_rBuf (n : Width) (off : Offset) (s : State) : exec (.rBuf n off) s =
    bufferAccess s n off fun i =>
      withBytes s i n.bytes fun bs => .next (s.reply (.value (BitVec.ofNat 32 (leNat bs)))) := rfl

theorem exec_wBuf (n : Width) (off : Offset) (v : Word) (s : State) : exec (.wBuf n off v) s =
    bufferAccess s n off fun i => complete (s.setBuf (Memory.setBytes s.buf i (leBytes n.bytes v.toNat))) := rfl

/-- A buffer access that fails the check is refused, by the decoder where it is misaligned and else by the machine. -/
theorem performAccess_of_not_bufferAccessOk {a : Access} {s : State} {n : Width} (hf : a.dir ≠ .fetch)
    (hb : bufBase ≤ a.off.toNat) (hn : Width.ofNat? a.width = some n) (hok : bufferAccessOk s n a.off = false) :
    performAccess a s = .next (s.busError a.off) := by
  obtain ⟨misaligned, aligned⟩ := (decode_of_bufBase_le hf hb).2 n hn
  cases hform : bufferForm n a.off with
  | false => exact performAccess_of_error (misaligned hform) s
  | true =>
    rcases aligned hform with hd | ⟨v, hd⟩
    · rw [performAccess_of_ok hd, exec_rBuf, bufferAccess_of_not_ok hok]
    · rw [performAccess_of_ok hd, exec_wBuf, bufferAccess_of_not_ok hok]

/-- An accepted buffer access never answers with a bus error. -/
theorem performAccess_buffer_resp {a : Access} {s t : State} {n : Width} (hf : a.dir ≠ .fetch)
    (hb : bufBase ≤ a.off.toNat) (hn : Width.ofNat? a.width = some n) (hok : bufferAccessOk s n a.off = true)
    (h : performAccess a s = .next t) : t.resp ≠ .busError := by
  obtain ⟨-, aligned⟩ := (decode_of_bufBase_le hf hb).2 n hn
  rcases aligned (bufferForm_of_accessOk hok) with hd | ⟨v, hd⟩
  · rw [performAccess_of_ok hd, exec_rBuf, bufferAccess_of_ok hok] at h
    obtain ⟨bs, -, hk⟩ := withBytes_next h
    cases hk
    exact BusResponse.noConfusion
  · rw [performAccess_of_ok hd, exec_wBuf, bufferAccess_of_ok hok] at h
    rw [complete_next h]
    exact BusResponse.noConfusion

/-! ### R64's cases in each region -/

/-- In the register region only (b) refuses. -/
theorem refused_register_iff {s : State} {a : Access} (hf : a.dir ≠ .fetch) (hr : a.off.toNat < regionEnd) :
    Refused s a ↔ ¬(a.width = 4 ∧ a.off.toNat % 4 = 0) := by
  have hr' : a.off.toNat < 0x02C := hr
  simp only [Refused, InBufferWindow, hf, or_false]
  omega

/-- From the window's first offset on, (a) to (f) refuse exactly what fails the machine's own check. -/
theorem refused_buffer_iff {s : State} {a : Access} (hf : a.dir ≠ .fetch) (hb : bufBase ≤ a.off.toNat) :
    Refused s a ↔ ∀ n, Width.ofNat? a.width = some n → bufferAccessOk s n a.off = false := by
  have hb' : 0x100 ≤ a.off.toNat := hb
  cases hn : Width.ofNat? a.width with
  | none =>
    have hwidth := width_ofNat?_eq_none_iff.mp hn
    simp only [Refused, InBufferWindow, reduceCtorEq, false_implies, implies_true, iff_true]
    omega
  | some n =>
    have hwidth : a.width = 1 ∨ a.width = 2 ∨ a.width = 4 := by
      by_contra hw
      rw [width_ofNat?_eq_none_iff.mpr hw] at hn
      cases hn
    simp only [Option.some.injEq, forall_eq', ← Bool.not_eq_true, bufferAccessOk_iff, width_bytes_of_ofNat? hn, bufIndex,
      bufBase, Refused, InBufferWindow, hf, or_false]
    cases s.owner with
    | cpu => simp only [reduceCtorEq, and_false, or_false, and_true]; omega
    | dma => simp only [reduceCtorEq, and_false, and_true, not_false_eq_true, iff_true]; omega

/-! ### The answer -/

/-- The case split of R60: registers, reserved, and the offsets from the buffer window on. -/
theorem offset_region (off : Offset) :
    off.toNat < regionEnd ∨ (regionEnd ≤ off.toNat ∧ off.toNat < bufBase) ∨ bufBase ≤ off.toNat := by
  omega

theorem performAccess_of_refused {s : State} {a : Access} (h : Refused s a) :
    performAccess a s = .next (s.busError a.off) := by
  by_cases hf : a.dir = .fetch
  · exact performAccess_of_error (decode_fetch hf) s
  rcases offset_region a.off with hr | ⟨hr, hb⟩ | hb
  · exact performAccess_of_error (decode_of_registerForm hf hr ((refused_register_iff hf hr).mp h)) s
  · exact performAccess_of_error (decode_of_reserved hf hr hb) s
  · cases hn : Width.ofNat? a.width with
    | none => exact performAccess_of_error ((decode_of_bufBase_le hf hb).1 hn) s
    | some n => exact performAccess_of_not_bufferAccessOk hf hb hn ((refused_buffer_iff hf hb).mp h n hn)

theorem performAccess_resp_of_not_refused {s t : State} {a : Access} (h : ¬Refused s a)
    (ht : performAccess a s = .next t) : t.resp ≠ .busError := by
  have hf : a.dir ≠ .fetch := fun hf => h (by simp [Refused, hf])
  rcases offset_region a.off with hr | ⟨hr, hb⟩ | hb
  · obtain ⟨hw, ha⟩ := not_not.mp (mt (refused_register_iff hf hr).mpr h)
    exact performAccess_register_resp hf hr hw ha ht
  · exact absurd (.inl (.inl ⟨hr, hb⟩)) h
  · rw [refused_buffer_iff hf hb] at h
    push Not at h
    obtain ⟨n, hn, hok⟩ := h
    exact performAccess_buffer_resp hf hb hn (by simpa using hok) ht

/-- Settles O7: a refused access is one `State.busError`, in its two forms, and every other access answers otherwise. -/
theorem refusedAccessIsBusError : Obligations.RefusedAccessIsBusError := by
  intro s a rest hc hi
  rw [step_cons hc hi]
  refine ⟨fun h => ?_, fun h t ht => performAccess_resp_of_not_refused (s := { s with inputs := rest }) h ht⟩
  have hstep : perform (.bus a) { s with inputs := rest } = .next (State.busError { s with inputs := rest } a.off) :=
    performAccess_of_refused h
  rw [hstep]
  exact ⟨fun hn => congrArg _ (State.busError_of_not_dma hn), fun hd => congrArg _ (State.busError_of_dma hd)⟩

end Sys2Proof.Machine
end

section
/-! SUPPORT. The decoder of a command word (spec/30_encoding.md R92): which words each of its two rejections takes, what
the write of an illegal word does, and O5. -/

namespace Sys2Proof.Machine

/-- R95(b) is the decoder's first check, and no other branch answers with it. -/
theorem decodeCmd_reservedBits_iff {w : Word} :
    decodeCmd w = .error .illegalReservedBits ↔ w.extractLsb' 4 28 ≠ 0 := by
  unfold decodeCmd
  split
  · next hw => exact iff_of_true rfl hw
  · next hw =>
    refine iff_of_false ?_ hw
    split <;> simp

/-- A word that decodes is one of the opcodes 0 to 8. -/
theorem lt_nine_of_decodeCmd_ok {w : Word} {i : Instr} (h : decodeCmd w = .ok i) : w.toNat < 9 := by
  rcases decodeCmd_ok h with ⟨rfl, -⟩ | ⟨rfl, -⟩ | ⟨rfl, -⟩ | ⟨rfl, -⟩ | ⟨rfl, -⟩ | ⟨rfl, -⟩ | ⟨rfl, -⟩ | ⟨rfl, -⟩ |
    ⟨rfl, -⟩ <;> decide

/-- Every word from 9 on is illegal, for its reserved bits or for its opcode. -/
theorem decodeCmd_of_nine_le {w : Word} (h : 9 ≤ w.toNat) :
    decodeCmd w = .error .illegalReservedBits ∨ decodeCmd w = .error .illegalOpcode := by
  cases hd : decodeCmd w with
  | ok i => exact absurd (lt_nine_of_decodeCmd_ok hd) h.not_gt
  | error r => exact (decodeRegWrite_error (r := .cmd) hd).imp (congrArg _) (congrArg _)

theorem decodeCmd_of_illegalOpcode {w : Word} (hr : w.extractLsb' 4 28 = 0) (h : 9 ≤ w.toNat) :
    decodeCmd w = .error .illegalOpcode :=
  (decodeCmd_of_nine_le h).resolve_left fun hd => decodeCmd_reservedBits_iff.mp hd hr

/-- A write to CMD is decoded as its command word. -/
theorem decode_command (w : Word) : decode (Access.command w) = decodeCmd w := rfl

/-- Both rejections of a command word end the write with ILLEGAL, in every state. -/
theorem performAccess_illegalCommand {w : Word} (h : 9 ≤ w.toNat) (s : State) :
    performAccess (Access.command w) s = .next (s.cmdError .illegal) := by
  rcases decodeCmd_of_nine_le h with hd | hd <;> exact performAccess_of_error ((decode_command w).trans hd) s

/-- Settles O5: the two rejections by their own lemmas, the nine opcodes by evaluation, and the write of an illegal word
from what performing it does. -/
theorem commandWordDecoding : Obligations.CommandWordDecoding := by
  refine ⟨fun w => decodeCmd_reservedBits_iff.mpr, rfl, rfl, rfl, rfl, rfl, rfl, rfl, rfl, rfl,
    fun w => decodeCmd_of_illegalOpcode, fun s w rest hc h hi => ?_⟩
  rw [step_cons hc hi]
  exact performAccess_illegalCommand h { s with inputs := rest }

end Sys2Proof.Machine
end

section
/-! SUPPORT. Validation (spec/40_integrity_functions.md R132) said once, as rewriting rules for its checks and an
inversion for its outcome; the continuity flags (R133), O17 and O56. -/

namespace Sys2Proof.Machine

theorem structOk_iff {c : Config} {F : List Byte} :
    structOk c F = true ↔ preF c F = c.preamble ∧ trlF c F = c.trailer := by
  simp [structOk]

theorem staleSeq_iff {pv : Bool} {prev q : Word} :
    staleSeq pv prev q = true ↔ pv = true ∧ ¬ prev.toNat < q.toNat := by
  simp [staleSeq]

/-! ### The outcome of each check -/

theorem validate_of_not_structOk {c : Config} {F : List Byte} (h : ¬ (preF c F = c.preamble ∧ trlF c F = c.trailer))
    (pv : Bool) (prev : Word) : validate c F pv prev = (.struct, 0) := by
  rw [← structOk_iff] at h
  simp [validate, h]

theorem validate_of_staleSeq {c : Config} {F : List Byte} (h : preF c F = c.preamble ∧ trlF c F = c.trailer)
    {pv : Bool} {prev : Word} (hs : pv = true ∧ ¬ prev.toNat < (seqF c F).toNat) :
    validate c F pv prev = (.seq, seqF c F) := by
  rw [← structOk_iff] at h
  rw [← staleSeq_iff] at hs
  simp [validate, h, hs]

theorem validate_of_structOk_of_not_staleSeq {c : Config} {F : List Byte}
    (h : preF c F = c.preamble ∧ trlF c F = c.trailer) {pv : Bool} {prev : Word}
    (hs : ¬ (pv = true ∧ ¬ prev.toNat < (seqF c F).toNat)) :
    validate c F pv prev = (integrityReason c F, seqF c F) := by
  rw [← structOk_iff] at h
  rw [← staleSeq_iff] at hs
  simp [validate, h, hs]

theorem integrityReason_of_checksum_ne {c : Config} {F : List Byte}
    (h : checksum c.csumOrder (zeroed c F) ≠ csumF c F) : integrityReason c F = .csum := if_neg h

theorem integrityReason_of_checksum_eq {c : Config} {F : List Byte}
    (h : checksum c.csumOrder (zeroed c F) = csumF c F) : integrityReason c F = modeReason c F := if_pos h

theorem modeReason_of_normal {c : Config} {F : List Byte} (h : modeF c F = c.modeNormal) :
    modeReason c F = if crcF c F = 0 then .ok else .unexpCrc := by
  have hm : modeOf c F = .normal := if_pos h
  rw [modeReason, hm]

theorem modeReason_of_safety {c : Config} {F : List Byte} (hn : modeF c F ≠ c.modeNormal)
    (h : modeF c F = c.modeSafety) :
    modeReason c F = if crcF c F = crc32 (zeroed c F) then .ok else .crc := by
  have hm : modeOf c F = .safety := by rw [modeOf, if_neg hn, if_pos h]
  rw [modeReason, hm]

theorem modeReason_of_unknown {c : Config} {F : List Byte} (hn : modeF c F ≠ c.modeNormal)
    (hs : modeF c F ≠ c.modeSafety) : modeReason c F = .mode := by
  have hm : modeOf c F = .unknown := by rw [modeOf, if_neg hn, if_neg hs]
  rw [modeReason, hm]

/-- Settles O17: the outcome of each check, in the order of R132. -/
theorem validationOrder : Obligations.ValidationOrder := by
  intro c F pv prev
  refine ⟨fun h => validate_of_not_structOk h pv prev, fun h => ⟨validate_of_staleSeq h, fun hs => ?_⟩⟩
  rw [validate_of_structOk_of_not_staleSeq h hs]
  refine ⟨fun hc => by rw [integrityReason_of_checksum_ne hc], fun hc => ?_⟩
  rw [integrityReason_of_checksum_eq hc]
  refine ⟨fun hn => ?_, fun hn hm => ?_, fun hn hm => by rw [modeReason_of_unknown hn hm]⟩
  · rw [modeReason_of_normal hn]
    exact ⟨fun h0 => by rw [if_neg h0], fun h0 => by rw [if_pos h0]⟩
  · rw [modeReason_of_safety hn hm]
    exact ⟨fun h0 => by rw [if_neg h0], fun h0 => by rw [if_pos h0]⟩

/-! ### The continuity flags -/

theorem integrityReason_ne_seq (c : Config) (F : List Byte) : integrityReason c F ≠ .seq := by
  unfold integrityReason modeReason
  split
  · split
    · split <;> simp
    · split <;> simp
    · simp
  · simp

/-- What an outcome says of the sequence check, for the two reasons that the flags ask for. -/
theorem validate_sequence {c : Config} {F : List Byte} {pv : Bool} {prev q : Word} {r : Reason}
    (h : validate c F pv prev = (r, q)) :
    (r = .seq → pv = true ∧ ¬ prev.toNat < q.toNat) ∧ (r = .ok → pv = true → prev.toNat < q.toNat) := by
  by_cases hs : preF c F = c.preamble ∧ trlF c F = c.trailer
  · by_cases hq : pv = true ∧ ¬ prev.toNat < (seqF c F).toNat
    · rw [validate_of_staleSeq hs hq] at h
      cases h
      exact ⟨fun _ => hq, nofun⟩
    · rw [validate_of_structOk_of_not_staleSeq hs hq] at h
      cases h
      exact ⟨fun hr => absurd hr (integrityReason_ne_seq c F), fun _ hpv => not_not.mp fun hn => hq ⟨hpv, hn⟩⟩
  · rw [validate_of_not_structOk hs] at h
    cases h
    exact ⟨nofun, nofun⟩

theorem gapFlag_iff {r : Reason} {q : Word} {pv : Bool} {prev : Word} :
    gapFlag r q pv prev = true ↔ r = .ok ∧ pv = true ∧ 1 < (q - prev).toNat := by
  simp [gapFlag, and_assoc]

theorem retroFlag_iff {r : Reason} {q prev : Word} :
    retroFlag r q prev = true ↔ r = .seq ∧ q.toNat < prev.toNat := by
  simp [retroFlag]

theorem dupFlag_iff {r : Reason} {q prev : Word} : dupFlag r q prev = true ↔ r = .seq ∧ q = prev := by
  simp [dupFlag]

/-- Settles O56: gap needs the reason OK, retro and dup the reason SEQ with a sequence below and equal to the previous
one; what the two reasons imply is the sequence check's outcome. -/
theorem continuityFlags : Obligations.ContinuityFlags := by
  intro c F pv prev q r h
  obtain ⟨hseq, hok⟩ := validate_sequence h
  refine ⟨gapFlag_iff, retroFlag_iff, dupFlag_iff, ?_⟩
  simp only [gapFlag_iff, retroFlag_iff, dupFlag_iff]
  refine ⟨?_, ?_, ?_, fun hr => ?_, fun hr hpv => ?_⟩
  · rintro ⟨⟨rfl, -⟩, ⟨⟩, -⟩
  · rintro ⟨⟨rfl, -⟩, ⟨⟩, -⟩
  · rintro ⟨⟨-, hlt⟩, -, rfl⟩
    exact lt_irrefl _ hlt
  · obtain ⟨hpv, hle⟩ := hseq hr
    rw [not_lt] at hle
    exact ⟨hpv, hle, hle.lt_or_eq.imp (⟨hr, ·⟩) fun he => ⟨hr, BitVec.eq_of_toNat_eq he⟩⟩
  · have hlt := hok hr hpv
    exact ⟨hlt, BitVec.toNat_sub_of_le hlt.le⟩

end Sys2Proof.Machine
end

section
/-! SUPPORT. The header field accessors (spec/40_integrity_functions.md R127, R128): a number as the sum of its bytes,
a field read back after it was put, and O55. -/

namespace Sys2Proof.Machine

/-! ### The value of a byte sequence as a sum -/

theorem leNat_eq_sum (bs : List Byte) :
    leNat bs = ∑ k ∈ Finset.range bs.length, (bs.getD k 0).toNat * 2 ^ (8 * k) := by
  induction bs with
  | nil => rfl
  | cons b bs ih =>
    rw [leNat, ih, List.length_cons, Finset.sum_range_succ', Finset.mul_sum, Nat.add_comm]
    congr 1
    · refine Finset.sum_congr rfl fun k _ => ?_
      rw [List.getD_cons_succ, Nat.mul_add 8, pow_add]
      ring
    · simp

/-- Reversing the bytes turns the byte numbers around. -/
theorem leNat_reverse_eq_sum (bs : List Byte) :
    leNat bs.reverse = ∑ k ∈ Finset.range bs.length, (bs.getD k 0).toNat * 2 ^ (8 * (bs.length - 1 - k)) := by
  rw [leNat_eq_sum, List.length_reverse, ← Finset.sum_range_reflect]
  refine Finset.sum_congr rfl fun k hk => ?_
  have hk := Finset.mem_range.mp hk
  rw [List.getD_reverse _ (by omega), show bs.length - 1 - (bs.length - 1 - k) = k by omega]

theorem getElem?_slice (F : List Byte) {off w k : Nat} (hk : k < w) : (slice F off w)[k]? = F[off + k]? := by
  rw [slice, List.getElem?_take, if_pos hk, List.getElem?_drop]

theorem getD_slice (F : List Byte) {off w k : Nat} (hk : k < w) : (slice F off w).getD k 0 = F.getD (off + k) 0 := by
  rw [List.getD_eq_getElem?_getD, List.getD_eq_getElem?_getD, getElem?_slice F hk]

theorem getU_le {c : Config} (ho : c.hdrOrder = .le) {F : List Byte} {off w : Nat} (h : off + w ≤ F.length) :
    getU c F off w = ∑ k ∈ Finset.range w, (F.getD (off + k) 0).toNat * 2 ^ (8 * k) := by
  rw [getU, ho, orderedNat, leNat_eq_sum, length_slice h]
  exact Finset.sum_congr rfl fun k hk => by rw [getD_slice F (Finset.mem_range.mp hk)]

theorem getU_be {c : Config} (ho : c.hdrOrder = .be) {F : List Byte} {off w : Nat} (h : off + w ≤ F.length) :
    getU c F off w = ∑ k ∈ Finset.range w, (F.getD (off + k) 0).toNat * 2 ^ (8 * (w - 1 - k)) := by
  rw [getU, ho, orderedNat, leNat_reverse_eq_sum, length_slice h]
  exact Finset.sum_congr rfl fun k hk => by rw [getD_slice F (Finset.mem_range.mp hk)]

/-! ### A field read back -/

/-- The bytes laid over an image stand there, where the image reaches as far. -/
theorem slice_overlay {F : List Byte} {off : Nat} {bs : List Byte} (h : off + bs.length ≤ F.length) :
    slice (overlay F off bs) off bs.length = bs := by
  refine List.ext_getElem? fun k => ?_
  rcases lt_or_ge k bs.length with hk | hk
  · rw [getElem?_slice _ hk, getElem?_overlay, if_pos (by omega), Nat.add_sub_cancel_left]
  · rw [List.getElem?_eq_none hk, List.getElem?_eq_none ((length_slice (by simpa using h)).trans_le hk)]

theorem getU_putU (c : Config) {F : List Byte} {off w : Nat} (v : Nat) (h : off + w ≤ F.length) :
    getU c (putU c F off w v) off w = v % 2 ^ (8 * w) := by
  have hs : slice (putU c F off w v) off w = orderedBytes c.hdrOrder w v := by
    simpa [putU] using slice_overlay (F := F) (off := off) (bs := orderedBytes c.hdrOrder w v) (by simpa using h)
  rw [getU, hs, orderedNat_orderedBytes, pow_mul]
  rfl

theorem getElem?_putU (c : Config) (F : List Byte) (off w v j : Nat) :
    (putU c F off w v)[j]? =
      if off ≤ j ∧ j < off + w ∧ j < F.length then (orderedBytes c.hdrOrder w v)[j - off]? else F[j]? := by
  rw [putU, getElem?_overlay, length_orderedBytes]

theorem getElem?_putU_outside (c : Config) (F : List Byte) {off w j : Nat} (v : Nat) (h : ¬ (off ≤ j ∧ j < off + w)) :
    (putU c F off w v)[j]? = F[j]? := by
  rw [getElem?_putU, if_neg (by omega)]

/-- Settles O55: the sums of the two header orders, and what laying a field's bytes over the image does inside the field
and outside it. -/
theorem fieldGetAndPut : Obligations.FieldGetAndPut :=
  ⟨fun _ _ _ _ h => ⟨fun ho => getU_le ho h, fun ho => getU_be ho h⟩,
    fun c F off w v h => ⟨getU_putU c v h, length_putU c F off w v, fun _ => getElem?_putU_outside c F v⟩⟩

end Sys2Proof.Machine
end

section
/-! SUPPORT. The Internet checksum as arithmetic (spec/40_integrity_functions.md R122): the accumulator is the sum of
the words, the fold keeps it modulo 65535, and O52. -/

namespace Sys2Proof.Machine

/-! ### The accumulator -/

theorem append_toNat (x y : Byte) : ((x ++ y).setWidth 32).toNat = x.toNat * 256 + y.toNat := by
  have hx := x.isLt
  have hy := y.isLt
  rw [BitVec.toNat_setWidth, BitVec.toNat_append, ← Nat.shiftLeft_add_eq_or_of_lt hy, Nat.shiftLeft_eq]
  omega

theorem csumWord_be_toNat (x y : Byte) : (csumWord .be x y).toNat = x.toNat * 256 + y.toNat := append_toNat x y

theorem csumWord_le_toNat (x y : Byte) : (csumWord .le x y).toNat = y.toNat * 256 + x.toNat := append_toNat y x

/-- The words of the sum are those the accumulator takes. -/
theorem wordSum_cons_cons (o : ByteOrder) (x y : Byte) (bs : List Byte) :
    wordSum o (x :: y :: bs) = (csumWord o x y).toNat + wordSum o bs := by
  cases o with
  | le => rw [csumWord_le_toNat, wordSum]
  | be => rw [csumWord_be_toNat, wordSum]

theorem csumWord_lt (o : ByteOrder) (x y : Byte) : (csumWord o x y).toNat < 65536 := by
  have hx := x.isLt
  have hy := y.isLt
  cases o with
  | le => rw [csumWord_le_toNat]; omega
  | be => rw [csumWord_be_toNat]; omega

/-- Every word is at most 0xFFFF, the standalone byte too. -/
theorem wordSum_le (o : ByteOrder) (b : List Byte) : wordSum o b ≤ 65535 * ((b.length + 1) / 2) := by
  induction b using wordSum.induct with
  | case1 => simp [wordSum]
  | case2 x =>
    have hx := x.isLt
    simp only [wordSum, List.length_singleton]
    omega
  | case3 x y bs ih =>
    have hw := csumWord_lt o x y
    rw [wordSum_cons_cons, List.length_cons, List.length_cons]
    omega

theorem csumAdd_toNat (o : ByteOrder) (acc : Word) (b : List Byte) :
    (csumAdd o acc b).toNat = (acc.toNat + wordSum o b) % 2 ^ 32 := by
  induction acc, b using csumAdd.induct (o := o) with
  | case1 acc => exact (Nat.mod_eq_of_lt acc.isLt).symm
  | case2 acc x =>
    have hx := x.isLt
    rw [csumAdd, wordSum, BitVec.toNat_add, BitVec.toNat_setWidth]
    omega
  | case3 acc x y bs ih =>
    rw [csumAdd, ih, wordSum_cons_cons, BitVec.toNat_add]
    omega

theorem wordSum_le_of_length_le (o : ByteOrder) {b : List Byte} (h : b.length ≤ 3840) : wordSum o b ≤ 0x077FF97F := by
  have := wordSum_le o b
  omega

/-- R122: the accumulator never overflows. -/
theorem csumAdd_zero_toNat (o : ByteOrder) {b : List Byte} (h : b.length ≤ 3840) :
    (csumAdd o 0 b).toNat = wordSum o b := by
  have := wordSum_le_of_length_le o h
  rw [csumAdd_toNat, show (0 : Word).toNat = 0 from rfl, Nat.zero_add, Nat.mod_eq_of_lt (by omega)]

/-! ### The fold -/

/-- The fold keeps the sum modulo 65535. -/
theorem csumFold_mod (fuel : Nat) (s : Word) : (csumFold fuel s).toNat % 65535 = s.toNat % 65535 := by
  induction fuel generalizing s with
  | zero => rfl
  | succ fuel ih =>
    rw [csumFold]
    split
    · rfl
    · rw [ih, fold_toNat]
      omega

/-- The fold reaches 0 from 0 only. -/
theorem csumFold_eq_zero_iff (fuel : Nat) (s : Word) : (csumFold fuel s).toNat = 0 ↔ s.toNat = 0 := by
  induction fuel generalizing s with
  | zero => rfl
  | succ fuel ih =>
    rw [csumFold]
    split
    · rfl
    · rw [ih, fold_toNat]
      omega

theorem not_checksum_toNat (o : ByteOrder) (b : List Byte) :
    (~~~ checksum o b).toNat = (csumFold 2 (csumAdd o 0 b)).toNat := by
  rw [checksum, BitVec.not_not, BitVec.toNat_setWidth]
  exact Nat.mod_eq_of_lt (csumFold_high _)

/-- The one's-complement sum is the sum of the words modulo 65535, with 65535 for a nonzero multiple. -/
theorem not_checksum_eq (o : ByteOrder) {b : List Byte} (h : b.length ≤ 3840) :
    (~~~ checksum o b).toNat = if wordSum o b = 0 then 0 else (wordSum o b - 1) % 65535 + 1 := by
  have hmod := csumFold_mod 2 (csumAdd o 0 b)
  have hzero := csumFold_eq_zero_iff 2 (csumAdd o 0 b)
  have hhigh := csumFold_high (csumAdd o 0 b)
  rw [csumAdd_zero_toNat o h] at hmod hzero
  rw [not_checksum_toNat]
  split <;> omega

/-- Settles O52: the bound, the exact accumulator, the two rounds and the folded value, each by its lemma. -/
theorem checksumIsOnesComplementSum : Obligations.ChecksumIsOnesComplementSum := fun o _ _ h =>
  ⟨wordSum_le_of_length_le o h, csumAdd_zero_toNat o h, csumFold_high _, not_checksum_eq o h⟩

end Sys2Proof.Machine
end

section
/-! SUPPORT. What the checksum detects and what it leaves out (spec/40_integrity_functions.md R123): a flipped bit
changes the sum of the words by a power of two below 2^16, the zeroed image does not hold the integrity fields, and
O53. -/

namespace Sys2Proof.Machine

/-! ### A flipped bit -/

/-- Two numbers differ by a power of two below 2^n. -/
def DifferByTwoPow (n x y : Nat) : Prop := ∃ m, m < n ∧ (x = y + 2 ^ m ∨ y = x + 2 ^ m)

theorem DifferByTwoPow.add_left {n x y : Nat} (h : DifferByTwoPow n x y) (z : Nat) :
    DifferByTwoPow n (z + x) (z + y) := by
  obtain ⟨m, hm, h⟩ := h
  exact ⟨m, hm, by omega⟩

theorem DifferByTwoPow.add_right {n x y : Nat} (h : DifferByTwoPow n x y) (z : Nat) :
    DifferByTwoPow n (x + z) (y + z) := by
  simpa only [Nat.add_comm _ z] using h.add_left z

theorem DifferByTwoPow.mono {n n' x y : Nat} (h : DifferByTwoPow n x y) (hn : n ≤ n') : DifferByTwoPow n' x y := by
  obtain ⟨m, hm, h⟩ := h
  exact ⟨m, hm.trans_le hn, h⟩

/-- A difference in the high byte of a word. -/
theorem DifferByTwoPow.mul_256 {x y : Nat} (h : DifferByTwoPow 8 x y) : DifferByTwoPow 16 (x * 256) (y * 256) := by
  obtain ⟨m, hm, h⟩ := h
  refine ⟨m + 8, by omega, ?_⟩
  rw [pow_add]
  omega

/-- 2^m is no multiple of 65535. -/
theorem DifferByTwoPow.mod_ne {x y : Nat} (h : DifferByTwoPow 16 x y) : x % 65535 ≠ y % 65535 := by
  obtain ⟨m, hm, h⟩ := h
  have hpos : 0 < 2 ^ m := Nat.two_pow_pos m
  have hle : 2 ^ m ≤ 2 ^ 15 := Nat.pow_le_pow_right (by omega) (by omega)
  omega

/-- Setting a clear bit adds its weight. -/
theorem toNat_xor_twoPow_of_clear {x : Byte} {k : Nat} (hk : k < 8) (hx : x.getLsbD k = false) :
    (x ^^^ BitVec.twoPow 8 k).toNat = x.toNat + 2 ^ k := by
  have hand : x &&& BitVec.twoPow 8 k = 0#8 := by rw [BitVec.and_twoPow, hx]; rfl
  have hxor : x ^^^ BitVec.twoPow 8 k = x ||| BitVec.twoPow 8 k := by
    refine BitVec.eq_of_getLsbD_eq fun i _ => ?_
    rw [BitVec.getLsbD_xor, BitVec.getLsbD_or, BitVec.getLsbD_twoPow]
    rcases eq_or_ne k i with rfl | hi
    · simp [hx]
    · simp [hi]
  rw [hxor, ← BitVec.add_eq_or_of_and_eq_zero _ _ hand, BitVec.toNat_add_of_and_eq_zero hand, BitVec.toNat_twoPow,
    Nat.mod_eq_of_lt (Nat.pow_lt_pow_right (by omega) hk)]

/-- Flipping bit k of a byte adds 2^k or takes it away. -/
theorem differByTwoPow_flip (x : Byte) {k : Nat} (hk : k < 8) :
    DifferByTwoPow 8 (x ^^^ (1#8 <<< k)).toNat x.toNat := by
  rw [← BitVec.twoPow_eq]
  refine ⟨k, hk, ?_⟩
  cases hx : x.getLsbD k with
  | false => exact .inl (toNat_xor_twoPow_of_clear hk hx)
  | true =>
    have hclear : (x ^^^ BitVec.twoPow 8 k).getLsbD k = false := by simp [hx, hk]
    have := toNat_xor_twoPow_of_clear hk hclear
    rw [BitVec.xor_assoc, BitVec.xor_self, BitVec.xor_zero] at this
    exact .inr this

theorem DifferByTwoPow.csumWord_left {x x' : Byte} (h : DifferByTwoPow 8 x'.toNat x.toNat) (o : ByteOrder) (y : Byte) :
    DifferByTwoPow 16 (csumWord o x' y).toNat (csumWord o x y).toNat := by
  cases o with
  | le =>
    rw [csumWord_le_toNat, csumWord_le_toNat]
    exact (h.mono (by omega)).add_left _
  | be =>
    rw [csumWord_be_toNat, csumWord_be_toNat]
    exact h.mul_256.add_right _

theorem DifferByTwoPow.csumWord_right {y y' : Byte} (h : DifferByTwoPow 8 y'.toNat y.toNat) (o : ByteOrder) (x : Byte) :
    DifferByTwoPow 16 (csumWord o x y').toNat (csumWord o x y).toNat := by
  cases o with
  | le =>
    rw [csumWord_le_toNat, csumWord_le_toNat]
    exact h.mul_256.add_right _
  | be =>
    rw [csumWord_be_toNat, csumWord_be_toNat]
    exact (h.mono (by omega)).add_left _

theorem flipBit_cons_zero (x : Byte) (bs : List Byte) (k : Nat) :
    flipBit (x :: bs) 0 k = (x ^^^ (1#8 <<< k)) :: bs := rfl

theorem flipBit_cons_succ (x : Byte) (bs : List Byte) (j k : Nat) :
    flipBit (x :: bs) (j + 1) k = x :: flipBit bs j k := rfl

@[simp] theorem length_flipBit (bs : List Byte) (j k : Nat) : (flipBit bs j k).length = bs.length :=
  List.length_modify ..

/-- R123(a): a flipped bit changes one term of the sum. -/
theorem differByTwoPow_wordSum_flipBit (o : ByteOrder) {b : List Byte} {j k : Nat} (hj : j < b.length) (hk : k < 8) :
    DifferByTwoPow 16 (wordSum o (flipBit b j k)) (wordSum o b) := by
  induction b using wordSum.induct generalizing j with
  | case1 => simp at hj
  | case2 x =>
    obtain rfl : j = 0 := by simpa using hj
    exact (differByTwoPow_flip x hk).mono (by omega)
  | case3 x y bs ih =>
    match j with
    | 0 =>
      rw [flipBit_cons_zero, wordSum_cons_cons, wordSum_cons_cons]
      exact ((differByTwoPow_flip x hk).csumWord_left o y).add_right _
    | 1 =>
      rw [flipBit_cons_succ, flipBit_cons_zero, wordSum_cons_cons, wordSum_cons_cons]
      exact ((differByTwoPow_flip y hk).csumWord_right o x).add_right _
    | j + 2 =>
      rw [flipBit_cons_succ, flipBit_cons_succ, wordSum_cons_cons, wordSum_cons_cons]
      exact (ih (by simpa using hj)).add_left _

/-- Equal checksums come from sums that are equal modulo 65535. -/
theorem wordSum_mod_eq_of_checksum_eq {o : ByteOrder} {b d : List Byte} (hb : b.length ≤ 3840) (hd : d.length ≤ 3840)
    (h : checksum o b = checksum o d) : wordSum o b % 65535 = wordSum o d % 65535 := by
  rw [← csumAdd_zero_toNat o hb, ← csumAdd_zero_toNat o hd, ← csumFold_mod 2, ← csumFold_mod 2 (csumAdd o 0 d),
    ← not_checksum_toNat, ← not_checksum_toNat, h]

/-! ### The zeroed image -/

/-- Zeroing the integrity fields leaves nothing of what stood in them. -/
theorem zeroed_congr {c : Config} {F G : List Byte} (hl : F.length = G.length)
    (h : ∀ j, OutsideIntegrity c j → F[j]? = G[j]?) : zeroed c F = zeroed c G := by
  refine List.ext_getElem? fun j => ?_
  simp only [zeroed, getElem?_putU, length_putU, hl]
  split
  · rfl
  · next hcrc =>
    split
    · rfl
    · next hcsum =>
      rcases lt_or_ge j G.length with hj | hj
      · exact h j ⟨by omega, by omega⟩
      · rw [List.getElem?_eq_none hj, List.getElem?_eq_none (hl.trans_le hj)]

/-- Settles O53: equal checksums need sums equal modulo 65535, which a flipped bit rules out; the zeroed images of (b)
are equal. -/
theorem checksumDetectsSingleBit : Obligations.ChecksumDetectsSingleBit := by
  refine ⟨fun o b j k hlen hj hk heq => ?_, fun c F G hF hG h => ?_⟩
  · exact (differByTwoPow_wordSum_flipBit o hj hk).mod_ne
      (wordSum_mod_eq_of_checksum_eq (by rwa [length_flipBit]) hlen heq)
  · rw [zeroed_congr (hF.2.trans hG.2.symm) h]

end Sys2Proof.Machine
end

section
/-! SUPPORT. The CRC's residue (spec/40_integrity_functions.md R125): the register's rounds over up to four bytes are
the rounds over their number, and O54. -/

namespace Sys2Proof.Machine

theorem crcBits_add (k l : Nat) (c : Word) : crcBits (k + l) c = crcBits l (crcBits k c) := by
  induction k generalizing c with
  | zero => rw [Nat.zero_add, crcBits]
  | succ k ih => rw [Nat.succ_add, crcBits, crcBits, ih]

/-- A round on an even register only shifts it. -/
theorem crcBit_double {n : Nat} (h : 2 * n < 2 ^ 32) : crcBit (BitVec.ofNat 32 (2 * n)) = BitVec.ofNat 32 n := by
  have hlow : (BitVec.ofNat 32 (2 * n)).getLsbD 0 = false := by
    rw [BitVec.getLsbD_ofNat, Nat.testBit_zero]
    simp
  rw [crcBit, hlow, if_neg (by simp)]
  refine BitVec.eq_of_toNat_eq ?_
  rw [BitVec.toNat_ushiftRight, Nat.shiftRight_eq_div_pow, BitVec.toNat_ofNat, BitVec.toNat_ofNat]
  omega

theorem crcBits_shifted {k n : Nat} (h : 2 ^ k * n < 2 ^ 32) :
    crcBits k (BitVec.ofNat 32 (2 ^ k * n)) = BitVec.ofNat 32 n := by
  induction k with
  | zero => rw [pow_zero, Nat.one_mul, crcBits]
  | succ k ih =>
    rw [pow_succ', Nat.mul_assoc] at h ⊢
    rw [crcBits, crcBit_double h, ih (by omega)]

/-- A number as the exclusive or of its low byte and the rest. -/
theorem ofNat_eq_xor (v : Nat) :
    BitVec.ofNat 32 v = (BitVec.ofNat 8 v).setWidth 32 ^^^ BitVec.ofNat 32 (2 ^ 8 * (v / 2 ^ 8)) := by
  refine BitVec.eq_of_getLsbD_eq fun i hi => ?_
  rw [BitVec.getLsbD_xor, BitVec.getLsbD_setWidth, BitVec.getLsbD_ofNat, BitVec.getLsbD_ofNat, BitVec.getLsbD_ofNat,
    Nat.testBit_two_pow_mul, Nat.testBit_div_two_pow]
  rcases lt_or_ge i 8 with h | h
  · simp [h, h.not_ge]
  · simp [h, h.not_gt]

/-- Consuming the w ≤ 4 bytes of v, least significant first, is 8w rounds on the register with v put in at once. -/
theorem foldl_crcByte_leBytes {w : Nat} (hw : w ≤ 4) (c : Word) {v : Nat} (hv : v < 256 ^ w) :
    (leBytes w v).foldl crcByte c = crcBits (8 * w) (c ^^^ BitVec.ofNat 32 v) := by
  induction w generalizing c v with
  | zero =>
    obtain rfl : v = 0 := by simpa using hv
    simp [leBytes, crcBits]
  | succ w ih =>
    have hv32 : v < 2 ^ 32 := hv.trans_le (Nat.pow_le_pow_right (n := 256) (by omega) hw)
    rw [pow_succ] at hv
    have hrest := crcBits_shifted (k := 8) (n := v / 2 ^ 8) (by omega)
    rw [leBytes, List.foldl_cons, ih (by omega) _ (by omega), Nat.mul_succ, Nat.add_comm, crcBits_add]
    congr 1
    rw [ofNat_eq_xor v, ← BitVec.xor_assoc, crcBits_xor, hrest]
    rfl

/-- 32 rounds on the initial register. -/
theorem crcBits_residue : crcBits 32 0xFFFFFFFF#32 = 0x904CDDBF#32 := by decide +kernel

/-- Settles O54: the CRC in the register after the message leaves the final xor's mask, whatever the message. -/
theorem crcCheckAndResidue : Obligations.CrcCheckAndResidue := by
  refine ⟨by decide +kernel, fun b => ?_⟩
  have happend : crcRegister (b ++ leBytes 4 (crc32 b).toNat) =
      (leBytes 4 (crc32 b).toNat).foldl crcByte (crcRegister b) := List.foldl_append ..
  rw [happend, foldl_crcByte_leBytes (by omega) _ (crc32 b).isLt, BitVec.ofNat_toNat, BitVec.setWidth_eq, crc32,
    ← BitVec.xor_assoc, BitVec.xor_self, BitVec.zero_xor]
  exact crcBits_residue

end Sys2Proof.Machine
end

section
/-! SUPPORT. What the commands that need the bundle share: the encoding of a command word (spec/30_encoding.md R91, R95)
and the two errors of the gate (spec/60_exceptions.md R273). -/

namespace Sys2Proof.Machine

/-- A word is its opcode and its reserved bits. -/
theorem word_eq_of_extractLsb' {v w : Word} (hop : v.extractLsb' 0 4 = w.extractLsb' 0 4)
    (hres : v.extractLsb' 4 28 = w.extractLsb' 4 28) : v = w := by
  have hlow := congrArg BitVec.toNat hop
  have hhigh := congrArg BitVec.toNat hres
  simp only [BitVec.extractLsb'_toNat, Nat.shiftRight_eq_div_pow] at hlow hhigh
  exact BitVec.eq_of_toNat_eq (by omega)

/-- A word that decodes has no reserved bit, so that another word of the same opcode has one. -/
theorem encodedBy_of_decodeCmd {op : Word} {i : Instr} (h : decodeCmd op = .ok i) : EncodedBy op i := by
  have hop : op.extractLsb' 4 28 = 0 := by
    by_contra hr
    rw [decodeCmd_reservedBits_iff.mpr hr] at h
    cases h
  refine ⟨h, fun w hw hne => decodeCmd_reservedBits_iff.mpr fun hr => ?_⟩
  exact hne (word_eq_of_extractLsb' hw (hr.trans hop.symm))

/-- A command whose meaning stands behind the gate of the bundle has the gate's errors. -/
theorem bundleGate_of_exec_eq_gate {i : Instr} {k : State → Result} (h : ∀ s, exec i s = gate true s k) :
    BundleGate i :=
  ⟨fun s hx => (h s).trans (gate_fatal hx), fun s hx ho => (h s).trans (gate_busy hx ho)⟩

end Sys2Proof.Machine
end

section
/-! SUPPORT. CSUM and CRC (spec/41_integrity_commands.md R151, R152): the three ends of the length command, O12 and
O13. -/

namespace Sys2Proof.Machine

theorem lengthCommand_of_badLen {s : State} (h : s.len.toNat = 0 ∨ s.cfg.n < s.len.toNat) (f : List Byte → Word) :
    lengthCommand f s = .next (s.cmdError .badLen) := if_pos h

/-- A length from 1 to N leaves the read of the bytes. -/
theorem lengthCommand_of_goodLen {s : State} (h1 : 1 ≤ s.len.toNat) (hn : s.len.toNat ≤ s.cfg.n)
    (f : List Byte → Word) :
    lengthCommand f s = withBytes s 0 s.len.toNat fun bs => complete (s.setResult (f bs)) := if_neg (by omega)

theorem lengthCommand_of_unwritten {s : State} (h1 : 1 ≤ s.len.toNat) (hn : s.len.toNat ≤ s.cfg.n)
    (h : HasUnwritten s 0 s.len.toNat) (f : List Byte → Word) : lengthCommand f s = .fault .unwrittenByte :=
  (lengthCommand_of_goodLen h1 hn f).trans (withBytes_of_unwritten h _)

theorem lengthCommand_of_holds {s : State} {bs : List Byte} (h1 : 1 ≤ s.len.toNat) (hn : s.len.toNat ≤ s.cfg.n)
    (h : Holds s 0 s.len.toNat bs) (f : List Byte → Word) :
    lengthCommand f s = .next ((s.setResult (f bs)).reply .accepted) :=
  (lengthCommand_of_goodLen h1 hn f).trans (withBytes_of_holds h _)

theorem exec_csum_of_open {s : State} (h : GateOpen s) :
    exec .csum s = lengthCommand (fun bs => (checksum s.cfg.csumOrder bs).setWidth 32) s :=
  (exec_csum s).trans (gate_of_open h _)

theorem exec_crc_of_open {s : State} (h : GateOpen s) : exec .crc s = lengthCommand crc32 s :=
  (exec_crc s).trans (gate_of_open h _)

/-- One byte is the whole sum, which needs no fold. -/
theorem checksum_singleton (o : ByteOrder) (x : Byte) : checksum o [x] = ~~~ (x.setWidth 16) := by
  have hsum := not_checksum_eq o (b := [x]) (by simp)
  have hx := x.isLt
  have hnot : ~~~ checksum o [x] = x.setWidth 16 := by
    refine BitVec.eq_of_toNat_eq ?_
    rw [hsum, wordSum, BitVec.toNat_setWidth]
    split <;> omega
  rw [← hnot, BitVec.not_not]

/-- Settles O12: the three ends of the length command behind the gate, and the checksum of one byte as its complement. -/
theorem csumWritesChecksum : Obligations.CsumWritesChecksum :=
  ⟨encodedBy_of_decodeCmd rfl, bundleGate_of_exec_eq_gate exec_csum,
    fun _ hg hl => (exec_csum_of_open hg).trans (lengthCommand_of_badLen hl _),
    fun _ hg h1 hn hu => (exec_csum_of_open hg).trans (lengthCommand_of_unwritten h1 hn hu _),
    fun _ _ hg h1 hn hb => (exec_csum_of_open hg).trans (lengthCommand_of_holds h1 hn hb _),
    checksum_singleton, by decide, by decide⟩

/-- Settles O13: the three ends of the length command behind the gate. -/
theorem crcWritesCrc : Obligations.CrcWritesCrc :=
  ⟨encodedBy_of_decodeCmd rfl, bundleGate_of_exec_eq_gate exec_crc,
    fun _ hg hl => (exec_crc_of_open hg).trans (lengthCommand_of_badLen hl _),
    fun _ hg h1 hn hu => (exec_crc_of_open hg).trans (lengthCommand_of_unwritten h1 hn hu _),
    fun _ _ hg h1 hn hb => (exec_crc_of_open hg).trans (lengthCommand_of_holds h1 hn hb _),
    by decide +kernel⟩

end Sys2Proof.Machine
end

section
/-! SUPPORT. Images that agree in a range of bytes, and the image that SEAL leaves (spec/41_integrity_commands.md R153):
its two fields, and every part of a frame (spec/10_state.md R18) that lies outside them. -/

namespace Sys2Proof.Machine

/-! ### Images that agree -/

theorem slice_eq_iff {F G : List Byte} {off w : Nat} :
    slice F off w = slice G off w ↔ ∀ k, k < w → F[off + k]? = G[off + k]? := by
  constructor
  · intro h k hk
    rw [← getElem?_slice F hk, h, getElem?_slice G hk]
  · intro h
    refine List.ext_getElem? fun k => ?_
    rcases lt_or_ge k w with hk | hk
    · rw [getElem?_slice F hk, getElem?_slice G hk, h k hk]
    · simp only [slice, List.getElem?_take, if_neg hk.not_gt]

theorem getU_congr (c : Config) {F G : List Byte} {off w : Nat} (h : ∀ k, k < w → F[off + k]? = G[off + k]?) :
    getU c F off w = getU c G off w := by rw [getU, slice_eq_iff.mpr h, getU]

/-- A field put elsewhere leaves a field alone. -/
theorem getU_putU_of_disjoint (c : Config) (F : List Byte) {off w off' w' : Nat} (v : Nat)
    (h : off + w ≤ off' ∨ off' + w' ≤ off) : getU c (putU c F off' w' v) off w = getU c F off w :=
  getU_congr c fun _ _ => getElem?_putU_outside c F v (by omega)

/-- The structure check sees the preamble and the trailer only. -/
theorem structOk_congr {c : Config} {F G : List Byte} (hp : ∀ k, k < c.preLen → F[0 + k]? = G[0 + k]?)
    (ht : ∀ k, k < c.trlLen → F[c.n - c.trlLen + k]? = G[c.n - c.trlLen + k]?) : structOk c F = structOk c G := by
  have hpre : preF c F = preF c G := slice_eq_iff.mpr hp
  have htrl : trlF c F = trlF c G := slice_eq_iff.mpr ht
  rw [structOk, hpre, htrl, structOk]

/-- The two images agree outside the checksum and the CRC field. -/
def AgreeOutsideIntegrity (c : Config) (F G : List Byte) : Prop := ∀ j, OutsideIntegrity c j → F[j]? = G[j]?

section
variable {c : Config} {F G : List Byte} (hc : c.admitted = true) (h : AgreeOutsideIntegrity c F G)
include hc h

theorem AgreeOutsideIntegrity.modeOf : modeOf c F = modeOf c G := by
  obtain ⟨-, hmode, hseq, hcsum, -⟩ := admitted_fields hc
  have hf : modeF c F = modeF c G := getU_congr c fun k hk => h _ ⟨by omega, by omega⟩
  rw [Machine.modeOf, hf, Machine.modeOf]

theorem AgreeOutsideIntegrity.seqF : seqF c F = seqF c G := by
  obtain ⟨-, -, hseq, hcsum, -⟩ := admitted_fields hc
  rw [Machine.seqF, getU_congr c fun k hk => h _ ⟨by omega, by omega⟩, Machine.seqF]

theorem AgreeOutsideIntegrity.structOk : structOk c F = structOk c G := by
  obtain ⟨hpre, hmode, hseq, hcsum, hcrc⟩ := admitted_fields hc
  exact structOk_congr (fun k hk => h _ ⟨by omega, by omega⟩) fun k hk => h _ ⟨by omega, by omega⟩

end

/-! ### The image that SEAL leaves -/

theorem sealCrc_eq (c : Config) (F : List Byte) :
    sealCrc c F = if modeOf c F = .safety then crc32 (zeroed c F) else 0#32 := by
  unfold sealCrc
  cases modeOf c F <;> rfl

theorem getElem?_zeroed_outside (F : List Byte) {c : Config} {j : Nat} (h : OutsideIntegrity c j) :
    (zeroed c F)[j]? = F[j]? := by
  rw [zeroed, getElem?_putU_outside _ _ _ h.2, getElem?_putU_outside _ _ _ h.1]

/-- The two fields are stored over zeroed bytes, or over the image as it was. -/
theorem sealImage_eq (c : Config) (F : List Byte) : sealImage c F =
    putU c (putU c F c.offCsum 2 (sealCsum c F).toNat) c.offCrc 4 (sealCrc c F).toNat := by
  rw [sealCrc_eq, sealCsum, sealImage]
  refine List.ext_getElem? fun j => ?_
  simp only [getElem?_putU, length_putU, length_zeroed]
  split
  · rfl
  · next hcrc =>
    split
    · rfl
    · next hcsum =>
      rcases lt_or_ge j F.length with hj | hj
      · exact getElem?_zeroed_outside F ⟨by omega, by omega⟩
      · rw [List.getElem?_eq_none (by simpa using hj), List.getElem?_eq_none hj]

@[simp] theorem length_sealImage (c : Config) (F : List Byte) : (sealImage c F).length = F.length := by
  simp [sealImage_eq]

theorem sealImage_agrees (c : Config) (F : List Byte) : AgreeOutsideIntegrity c (sealImage c F) F := fun j h => by
  rw [sealImage_eq, getElem?_putU_outside _ _ _ h.2, getElem?_putU_outside _ _ _ h.1]

theorem putU_offCrc_agrees (c : Config) (F : List Byte) (v : Nat) :
    AgreeOutsideIntegrity c (putU c F c.offCrc 4 v) F := fun _ h => getElem?_putU_outside c F v h.2

theorem zeroed_sealImage (c : Config) (F : List Byte) : zeroed c (sealImage c F) = zeroed c F :=
  zeroed_congr (length_sealImage c F) (sealImage_agrees c F)

/-- A field that takes a word of its own width reads as that word. -/
theorem ofNat_getU_putU (c : Config) {F : List Byte} {off w : Nat} (v : BitVec (8 * w)) (h : off + w ≤ F.length) :
    BitVec.ofNat (8 * w) (getU c (putU c F off w v.toNat) off w) = v := by
  rw [getU_putU c _ h, Nat.mod_eq_of_lt v.isLt, BitVec.ofNat_toNat, BitVec.setWidth_eq]

section
variable {c : Config} {F : List Byte} (hF : IsFrame c F)
include hF

theorem crcF_putU (v : Word) : crcF c (putU c F c.offCrc 4 v.toNat) = v := by
  obtain ⟨hc, hl⟩ := hF
  obtain ⟨-, -, -, -, hcrc⟩ := admitted_fields hc
  exact ofNat_getU_putU (w := 4) c v (by omega)

theorem csumF_putU (v : Half) : csumF c (putU c F c.offCsum 2 v.toNat) = v := by
  obtain ⟨hc, hl⟩ := hF
  obtain ⟨-, -, -, hcsum, hcrc⟩ := admitted_fields hc
  exact ofNat_getU_putU (w := 2) c v (by omega)

/-- The CRC field is none of the checksum field's bytes. -/
theorem csumF_putU_offCrc (v : Nat) : csumF c (putU c F c.offCrc 4 v) = csumF c F := by
  obtain ⟨-, -, -, hcsum, -⟩ := admitted_fields hF.1
  rw [csumF, getU_putU_of_disjoint c F v (.inl hcsum), csumF]

theorem isFrame_putU (off w v : Nat) : IsFrame c (putU c F off w v) := ⟨hF.1, by rw [length_putU, hF.2]⟩

theorem crcF_sealImage : crcF c (sealImage c F) = sealCrc c F := by
  rw [sealImage_eq, crcF_putU (isFrame_putU hF ..)]

theorem csumF_sealImage : csumF c (sealImage c F) = sealCsum c F := by
  rw [sealImage_eq, csumF_putU_offCrc (isFrame_putU hF ..), csumF_putU hF]

/-- SEAL's image is sealed where the structure is right and the mode is known. -/
theorem isSealed_sealImage (hs : structOk c F = true) (hm : modeOf c F ≠ .unknown) : IsSealed c (sealImage c F) := by
  have hmode : modeOf c (sealImage c F) = modeOf c F := (sealImage_agrees c F).modeOf hF.1
  refine ⟨⟨hF.1, by rw [length_sealImage, hF.2]⟩, ?_, ?_, ?_, ?_⟩
  · rw [(sealImage_agrees c F).structOk hF.1, hs]
  · rwa [hmode]
  · rw [csumF_sealImage hF, zeroed_sealImage, sealCsum]
  · rw [crcF_sealImage hF, hmode, zeroed_sealImage, sealCrc_eq]
    rfl

end

end Sys2Proof.Machine
end

section
/-! SUPPORT. SEAL (spec/41_integrity_commands.md R153): the buffer after it, cell by cell and as an image, and O14. -/

namespace Sys2Proof.Machine

/-- A stored field is put over the image that the cells hold. -/
theorem getBytes_storeField (c : Config) {m : Memory} {n : Nat} {F : List Byte} (h : Memory.getBytes m 0 n = some F)
    (off w v : Nat) : Memory.getBytes (storeField c m off w v) 0 n = some (putU c F off w v) := by
  obtain ⟨hl, hget⟩ := Memory.getBytes_eq_some.mp h
  refine Memory.getBytes_eq_some.mpr ⟨by rw [length_putU, hl], fun k hk => ?_⟩
  rw [storeField, Memory.get_setBytes, length_orderedBytes, getElem?_putU, hget k hk, Nat.zero_add]
  simp only [hl, hk, and_true]

theorem get_storeField_outside (c : Config) (m : Memory) {off w j : Nat} (v : Nat) (h : ¬ (off ≤ j ∧ j < off + w)) :
    Memory.get (storeField c m off w v) j = Memory.get m j := by
  rw [storeField, Memory.get_setBytes, length_orderedBytes, if_neg h]

/-- After SEAL the buffer holds SEAL's image. -/
theorem holds_sealBuf {s : State} {F : List Byte} (h : Holds s 0 s.cfg.n F) :
    Holds { s with buf := sealBuf s.cfg s.buf F } 0 s.cfg.n (sealImage s.cfg F) := by
  rw [holds_iff, sealImage_eq]
  exact getBytes_storeField _ (getBytes_storeField _ (holds_iff.mp h) _ _ _) _ _ _

theorem get_sealBuf_outside {c : Config} (m : Memory) (F : List Byte) {j : Nat} (h : OutsideIntegrity c j) :
    Memory.get (sealBuf c m F) j = Memory.get m j := by
  rw [sealBuf, get_storeField_outside _ _ _ h.2, get_storeField_outside _ _ _ h.1]

/-- The state after SEAL of the image F. -/
def State.sealed (s : State) (F : List Byte) : State :=
  { s with buf := sealBuf s.cfg s.buf F, result := (sealCsum s.cfg F).setWidth 32, resp := .accepted }

theorem exec_sealFrame_of_holds {s : State} {F : List Byte} (hg : GateOpen s) (hF : Holds s 0 s.cfg.n F) :
    exec .sealFrame s =
      if modeOf s.cfg F = .unknown then .next (s.cmdError .badMode) else .next (s.sealed F) := by
  rw [exec_sealFrame, gate_of_open hg, withBytes_of_holds hF]
  rfl

theorem exec_sealFrame_of_mode {s : State} {F : List Byte} (hg : GateOpen s) (hF : Holds s 0 s.cfg.n F)
    (hm : modeOf s.cfg F ≠ .unknown) : exec .sealFrame s = .next (s.sealed F) := by
  rw [exec_sealFrame_of_holds hg hF, if_neg hm]

theorem exec_sealFrame_of_unwritten {s : State} (hg : GateOpen s) (hu : HasUnwritten s 0 s.cfg.n) :
    exec .sealFrame s = .fault .unwrittenByte := by
  rw [exec_sealFrame, gate_of_open hg, withBytes_of_unwritten hu]

/-- Settles O14: SEAL's three ends behind the gate, and the buffer it leaves. -/
theorem sealStoresIntegrityFields : Obligations.SealStoresIntegrityFields := by
  refine ⟨encodedBy_of_decodeCmd rfl, bundleGate_of_exec_eq_gate exec_sealFrame,
    fun s hg hu _ => exec_sealFrame_of_unwritten hg hu, fun s F hg hF hm => ?_,
    fun s F _ hg hF hm =>
      ⟨exec_sealFrame_of_mode hg hF hm, holds_sealBuf hF, fun _ => get_sealBuf_outside s.buf F⟩⟩
  exact (exec_sealFrame_of_holds hg hF).trans (if_pos hm)

end Sys2Proof.Machine
end

section
/-! SUPPORT. VALIDATE (spec/41_integrity_commands.md R154): the unwritten bytes that Validate must read, and O15. -/

namespace Sys2Proof.Machine

/-- The preamble and the trailer are read first, both whole. -/
theorem validateBuf_of_unwritten_ends {s : State}
    (h : HasUnwritten s 0 s.cfg.preLen ∨ HasUnwritten s (s.cfg.n - s.cfg.trlLen) s.cfg.trlLen) :
    validateBuf s = none := by
  rw [hasUnwritten_iff, hasUnwritten_iff] at h
  unfold validateBuf
  split
  · next hp ht => simp [hp, ht] at h
  · rfl

section
variable {s : State} (hp : Holds s 0 s.cfg.preLen s.cfg.preamble)
  (ht : Holds s (s.cfg.n - s.cfg.trlLen) s.cfg.trlLen s.cfg.trailer)
include hp ht

/-- With the structure right, the sequence field is read next. -/
theorem validateBuf_of_unwritten_seq (h : HasUnwritten s s.cfg.offSeq 4) : validateBuf s = none := by
  simp [validateBuf, holds_iff.mp hp, holds_iff.mp ht, hasUnwritten_iff.mp h]

/-- With the sequence accepted, the whole frame is read. -/
theorem validateBuf_of_unwritten_frame {q : List Byte} (hq : Holds s s.cfg.offSeq 4 q)
    (hnew : s.prevValid = true → s.prevSeq.toNat < orderedNat s.cfg.hdrOrder q) (h : HasUnwritten s 0 s.cfg.n) :
    validateBuf s = none := by
  have hlt : orderedNat s.cfg.hdrOrder q < 2 ^ 32 := by
    simpa [hq.1] using orderedNat_lt s.cfg.hdrOrder q
  have hstale : staleSeq s.prevValid s.prevSeq (BitVec.ofNat 32 (orderedNat s.cfg.hdrOrder q)) = false := by
    rw [← Bool.not_eq_true, staleSeq_iff, BitVec.toNat_ofNat, Nat.mod_eq_of_lt hlt]
    exact fun ⟨hpv, hn⟩ => hn (hnew hpv)
  simp [validateBuf, holds_iff.mp hp, holds_iff.mp ht, holds_iff.mp hq, hstale, hasUnwritten_iff.mp h]

end

theorem exec_validate_of_some {s : State} {r : Reason} {q : Word} (hg : GateOpen s) (h : validateBuf s = some (r, q)) :
    exec .validate s = .next (recorded s r q) := by
  rw [exec_validate, gate_of_open hg, withOutcome, h, ← setOutcome_reply]
  rfl

theorem exec_validate_of_none {s : State} (hg : GateOpen s) (h : validateBuf s = none) :
    exec .validate s = .fault .unwrittenByte := by
  rw [exec_validate, gate_of_open hg, withOutcome, h]

/-- On a written buffer VALIDATE records Validate's outcome. -/
theorem exec_validate_of_holds {s : State} {F : List Byte} {r : Reason} {q : Word} (hc : s.cfg.admitted = true)
    (hg : GateOpen s) (hF : Holds s 0 s.cfg.n F) (hv : validate s.cfg F s.prevValid s.prevSeq = (r, q)) :
    exec .validate s = .next (recorded s r q) := by
  obtain ⟨-, -, hends, -⟩ := admitted_sizes hc
  obtain ⟨-, -, hcsum, hcrc, hn⟩ := admitted_fields hc
  exact exec_validate_of_some hg (hv ▸ validateBuf_of_holds hF (by omega) (by omega) (by omega))

/-- Settles O15: the outcome on a written buffer, and the three reads in R132's order that meet an unwritten byte. -/
theorem validateRecordsOutcome : Obligations.ValidateRecordsOutcome :=
  ⟨encodedBy_of_decodeCmd rfl, bundleGate_of_exec_eq_gate exec_validate,
    fun _ _ hc hg hF => exec_validate_of_holds hc hg hF rfl,
    fun _ hg _ _ hu => exec_validate_of_none hg (validateBuf_of_unwritten_ends hu),
    fun _ hg hp ht hu => exec_validate_of_none hg (validateBuf_of_unwritten_seq hp ht hu),
    fun _ _ hg hp ht hq hnew hu => exec_validate_of_none hg (validateBuf_of_unwritten_frame hp ht hq hnew hu)⟩

end Sys2Proof.Machine
end

section
/-! SUPPORT. Sealed frames (spec/41_integrity_commands.md R155, R157): how Validate goes on with an image that differs
from a sealed one, O57 and O59. -/

namespace Sys2Proof.Machine

theorem modeReason_of_modeOf_normal {c : Config} {F : List Byte} (h : modeOf c F = .normal) :
    modeReason c F = if crcF c F = 0 then .ok else .unexpCrc := by rw [modeReason, h]

theorem modeReason_of_modeOf_safety {c : Config} {F : List Byte} (h : modeOf c F = .safety) :
    modeReason c F = if crcF c F = crc32 (zeroed c F) then .ok else .crc := by rw [modeReason, h]

theorem modeReason_of_sealed {c : Config} {F : List Byte} (h : IsSealed c F) : modeReason c F = .ok := by
  have hcrc := h.crc
  cases hm : modeOf c F with
  | normal => rw [modeReason_of_modeOf_normal hm, if_pos (by simpa [hm] using hcrc)]
  | safety => rw [modeReason_of_modeOf_safety hm, if_pos (by simpa [hm] using hcrc)]
  | unknown => exact absurd hm h.mode

/-- A sealed frame of an accepted sequence validates OK. -/
theorem validate_of_sealed {c : Config} {F : List Byte} (h : IsSealed c F) {pv : Bool} {prev : Word}
    (hnew : pv = false ∨ prev.toNat < (seqF c F).toNat) : validate c F pv prev = (.ok, seqF c F) := by
  have hstale : ¬ (pv = true ∧ ¬ prev.toNat < (seqF c F).toNat) := fun ⟨hpv, hn⟩ =>
    hnew.elim (fun h0 => by simp [h0] at hpv) hn
  rw [validate_of_structOk_of_not_staleSeq (structOk_iff.mp h.struct) hstale,
    integrityReason_of_checksum_eq h.csum.symm, modeReason_of_sealed h]

/-- Settles O57: SEAL leaves a sealed image, with the sequence of the image it found. -/
theorem sealThenValidateIsOk : Obligations.SealThenValidateIsOk := by
  intro s F hc hg hF hs hm hnew
  have hframe : IsFrame s.cfg F := ⟨hc, hF.1⟩
  have hseq : seqF s.cfg (sealImage s.cfg F) = seqF s.cfg F := (sealImage_agrees s.cfg F).seqF hc
  have hok : validate s.cfg (sealImage s.cfg F) s.prevValid s.prevSeq = (.ok, seqF s.cfg F) := by
    rw [validate_of_sealed (isSealed_sealImage hframe hs hm) (hseq ▸ hnew), hseq]
  exact ⟨s.sealed F, _, exec_sealFrame_of_mode hg hF hm,
    exec_validate_of_holds (s := s.sealed F) hc hg (holds_sealBuf hF) hok, rfl, rfl⟩

/-! ### Tampering -/

/-- With PREV_VALID 0, an image of the right structure has the outcome of the integrity checks. -/
theorem validate_first {c : Config} {F : List Byte} (h : structOk c F = true) (prev : Word) :
    (validate c F false prev).1 = integrityReason c F := by
  rw [validate_of_structOk_of_not_staleSeq (structOk_iff.mp h) (by simp)]

theorem getElem?_flipBit_of_ne (F : List Byte) {i j : Nat} (k : Nat) (h : j ≠ i) : (flipBit F j k)[i]? = F[i]? :=
  List.getElem?_modify_ne _ _ h

/-- A bit outside the integrity fields is flipped before or after the fields are zeroed. -/
theorem zeroed_flipBit (F : List Byte) {c : Config} {j : Nat} (k : Nat) (h : OutsideIntegrity c j) :
    zeroed c (flipBit F j k) = flipBit (zeroed c F) j k := by
  refine List.ext_getElem? fun i => ?_
  rcases eq_or_ne j i with rfl | hi
  · rw [getElem?_zeroed_outside _ h, flipBit, flipBit, List.getElem?_modify_eq, List.getElem?_modify_eq,
      getElem?_zeroed_outside _ h]
  · rw [getElem?_flipBit_of_ne _ k hi]
    simp only [zeroed, getElem?_putU, length_putU, length_flipBit, getElem?_flipBit_of_ne _ k hi]

/-- Two images of the right structure have the same preamble and the same trailer. -/
theorem getElem?_eq_of_structOk {c : Config} {F G : List Byte} (hF : structOk c F = true) (hG : structOk c G = true)
    {j : Nat} (hj : j < c.preLen ∨ (c.n - c.trlLen ≤ j ∧ j < c.n)) : G[j]? = F[j]? := by
  obtain ⟨hpF, htF⟩ := structOk_iff.mp hF
  obtain ⟨hpG, htG⟩ := structOk_iff.mp hG
  rcases hj with hj | ⟨hl, hn⟩
  · simpa using slice_eq_iff.mp (hpG.trans hpF.symm) j hj
  · simpa [Nat.add_sub_cancel' hl] using slice_eq_iff.mp (htG.trans htF.symm) (j - (c.n - c.trlLen)) (by omega)

section
variable {c : Config} {F : List Byte} (h : IsSealed c F) (prev : Word)
include h

/-- R157(a): the payload lies outside every field, and the checksum covers it. -/
theorem validate_flipBit {j k : Nat} (hl : c.n - c.trlLen - 160 ≤ j) (hu : j < c.n - c.trlLen) (hk : k < 8) :
    (validate c (flipBit F j k) false prev).1 = .csum := by
  obtain ⟨hc, hlen⟩ := h.frame
  obtain ⟨-, -, hpre, hmax⟩ := admitted_sizes hc
  obtain ⟨-, -, -, hcsum, hcrc⟩ := admitted_fields hc
  have hstruct : structOk c (flipBit F j k) = structOk c F :=
    structOk_congr (fun i hi => getElem?_flipBit_of_ne F k (by omega))
      fun i hi => getElem?_flipBit_of_ne F k (by omega)
  have hfield : csumF c (flipBit F j k) = csumF c F := by
    rw [csumF, getU_congr c fun i hi => getElem?_flipBit_of_ne F k (by omega), csumF]
  rw [validate_first (hstruct.trans h.struct)]
  refine integrityReason_of_checksum_ne ?_
  rw [zeroed_flipBit F k ⟨by omega, by omega⟩, hfield, h.csum]
  exact checksumDetectsSingleBit.1 c.csumOrder (zeroed c F) j k (by rw [length_zeroed]; omega)
    (by rw [length_zeroed]; omega) hk

/-- R157(b), (c): a CRC field put into a sealed frame is seen by the mode's CRC rule only. -/
theorem validate_putU_offCrc (v : Nat) :
    (validate c (putU c F c.offCrc 4 v) false prev).1 = modeReason c (putU c F c.offCrc 4 v) := by
  have hagree := putU_offCrc_agrees c F v
  rw [validate_first ((hagree.structOk h.frame.1).trans h.struct)]
  refine integrityReason_of_checksum_eq ?_
  rw [zeroed_congr (length_putU ..) hagree, csumF_putU_offCrc h.frame, h.csum]

theorem validate_putU_offCrc_normal {v : Word} (hm : modeOf c F = .normal) (hv : v ≠ 0) :
    (validate c (putU c F c.offCrc 4 v.toNat) false prev).1 = .unexpCrc := by
  rw [validate_putU_offCrc h, modeReason_of_modeOf_normal (((putU_offCrc_agrees c F _).modeOf h.frame.1).trans hm),
    crcF_putU h.frame, if_neg hv]

theorem validate_putU_offCrc_safety {v : Word} (hm : modeOf c F = .safety) (hv : v ≠ crcF c F) :
    (validate c (putU c F c.offCrc 4 v.toNat) false prev).1 = .crc := by
  have hcrc : crcF c F = crc32 (zeroed c F) := by rw [h.crc, if_pos hm]
  rw [validate_putU_offCrc h, modeReason_of_modeOf_safety (((putU_offCrc_agrees c F _).modeOf h.frame.1).trans hm),
    crcF_putU h.frame, zeroed_congr (length_putU ..) (putU_offCrc_agrees c F _), if_neg (hcrc ▸ hv)]

/-- R157(d): another byte in the preamble or the trailer. -/
theorem validate_of_changed_ends {G : List Byte}
    (hG : ∃ j, (j < c.preLen ∨ (c.n - c.trlLen ≤ j ∧ j < c.n)) ∧ G[j]? ≠ F[j]?) :
    (validate c G false prev).1 = .struct := by
  obtain ⟨j, hj, hne⟩ := hG
  rw [validate_of_not_structOk fun hs => hne (getElem?_eq_of_structOk h.struct (structOk_iff.mpr hs) hj)]

end

/-- Settles O59: SEAL's image is sealed, and each of R157's four cases by its lemma. -/
theorem tamperingIsDetected : Obligations.TamperingIsDetected :=
  ⟨fun _ _ => isSealed_sealImage, fun _ _ prev h =>
    ⟨fun _ _ => validate_flipBit h prev, fun _ => validate_putU_offCrc_normal h prev,
      fun _ => validate_putU_offCrc_safety h prev, fun _ _ => validate_of_changed_ends h prev⟩⟩

end Sys2Proof.Machine
end

section
/-! SUPPORT. SEAL twice (spec/41_integrity_commands.md R156): canonical memories are told apart by their cells, the
second SEAL stores the bytes that stand there, and O58. -/

namespace Sys2Proof.Machine

theorem Memory.get_head (m : Memory) (i : Nat) (b : Byte) : Memory.get ((i, b) :: m) i = some b := if_pos rfl

/-- The first listed index is the least written one. -/
theorem Memory.head_le_of_get {m : Memory} {i j : Nat} {b d : Byte} (h : Memory.wf ((i, b) :: m) = true)
    (hget : Memory.get ((i, b) :: m) j = some d) : i ≤ j := by
  by_contra hj
  obtain ⟨hi, -⟩ := Memory.wf_cons.mp h
  have hlt := not_le.mp hj
  rw [Memory.get_none_of_lt (List.forall_mem_cons.mpr ⟨hlt, fun p hp => hlt.trans (hi p hp)⟩)] at hget
  cases hget

/-- A canonical memory is what its cells hold. -/
theorem Memory.ext_of_wf {m m' : Memory} (h : Memory.wf m = true) (h' : Memory.wf m' = true)
    (hget : ∀ i, Memory.get m i = Memory.get m' i) : m = m' := by
  induction m generalizing m' with
  | nil =>
    cases m' with
    | nil => rfl
    | cons q m' => simpa [Memory.get] using hget q.1
  | cons p m ih =>
    obtain ⟨i, b⟩ := p
    cases m' with
    | nil => simpa [Memory.get] using hget i
    | cons q m' =>
      obtain ⟨j, d⟩ := q
      obtain ⟨hi, hm⟩ := Memory.wf_cons.mp h
      obtain ⟨hj, hm'⟩ := Memory.wf_cons.mp h'
      have hij := Memory.head_le_of_get h ((hget j).trans (Memory.get_head m' j d))
      have hji := Memory.head_le_of_get h' ((hget i).symm.trans (Memory.get_head m i b))
      obtain rfl : i = j := le_antisymm hij hji
      obtain rfl : b = d := by simpa [Memory.get_head] using hget i
      rw [ih hm hm' fun k => ?_]
      rcases eq_or_ne i k with rfl | hk
      · rw [Memory.get_none_of_lt hi, Memory.get_none_of_lt hj]
      · simpa [Memory.get, hk] using hget k

theorem sealBuf_sealImage {c : Config} (hc : c.admitted = true) (m : Memory) (F : List Byte) :
    sealBuf c m (sealImage c F) = sealBuf c m F := by
  have hmode := (sealImage_agrees c F).modeOf hc
  rw [sealBuf, sealBuf, sealCsum, sealCsum, sealCrc_eq, sealCrc_eq, zeroed_sealImage, hmode]

/-- Storing the same two fields again changes no cell. -/
theorem sealBuf_sealBuf {c : Config} {m : Memory} (hm : Memory.wf m = true) (F : List Byte) :
    sealBuf c (sealBuf c m F) F = sealBuf c m F := by
  refine Memory.ext_of_wf (Memory.wf_sealBuf (Memory.wf_sealBuf hm c F) c F) (Memory.wf_sealBuf hm c F) fun j => ?_
  simp only [sealBuf, storeField, Memory.get_setBytes]
  split
  · rfl
  · split <;> rfl

theorem State.sealed_sealed {s : State} (h : Inv s) (F : List Byte) :
    (s.sealed F).sealed (sealImage s.cfg F) = s.sealed F := by
  have hbuf : sealBuf s.cfg (sealBuf s.cfg s.buf F) (sealImage s.cfg F) = sealBuf s.cfg s.buf F := by
    rw [sealBuf_sealImage h.cfgAdmitted, sealBuf_sealBuf h.bufWf]
  have hcsum : sealCsum s.cfg (sealImage s.cfg F) = sealCsum s.cfg F := by
    rw [sealCsum, zeroed_sealImage, sealCsum]
  simp only [State.sealed, hbuf, hcsum]

/-- Settles O58: the second SEAL reads the image the first one left, and its two fields are the ones stored. -/
theorem sealIsIdempotent : Obligations.SealIsIdempotent := by
  intro s F hi hg hF hm
  have hmode : modeOf s.cfg (sealImage s.cfg F) ≠ .unknown := by
    rwa [(sealImage_agrees s.cfg F).modeOf hi.cfgAdmitted]
  have hagain := exec_sealFrame_of_mode (s := s.sealed F) hg (holds_sealBuf hF) hmode
  rw [State.sealed_sealed hi] at hagain
  exact ⟨s.sealed F, exec_sealFrame_of_mode hg hF hm, hagain⟩

end Sys2Proof.Machine
end

section
/-! SUPPORT. What a step does to XSTATE (spec/42_transfer_engine.md R181), and O37. -/

namespace Sys2Proof.Machine

/-- XSTATE stays or moves by a row of R181's table, where outside FATAL the CPU owns the bundle only in IDLE (R24). -/
theorem StepCase.xstate_cases {s t : State} {x : Input} (h : StepCase s x t) (hx : x ≠ .rst)
    (hi : s.xstate ≠ .fatal → s.owner = .cpu → s.xstate = .idle) :
    t.xstate = s.xstate ∨ ListedTransition x s.xstate t.xstate := by
  cases h with
  | xferStart hf ho => exact .inr (.inl ⟨rfl, hi hf ho, rfl⟩)
  | t1 hs => exact .inr (.inr (.inl ⟨rfl, hs, rfl⟩))
  | t2Transmit rx F hs => exact .inr (.inr (.inr (.inl ⟨⟨rx, rfl⟩, hs, rfl⟩)))
  | t2Receive rx hs => exact .inr (.inr (.inr (.inl ⟨⟨rx, rfl⟩, hs, rfl⟩)))
  | t3 hs => exact .inr (.inr (.inr (.inr (.inl ⟨rfl, hs, s.enterFatal_xstate⟩))))
  | t4 hs => exact .inr (.inr (.inr (.inr (.inr (.inl ⟨rfl, hs, rfl⟩)))))
  | t5 hs => exact .inr (.inr (.inr (.inr (.inr (.inr ⟨rfl, hs, rfl⟩)))))
  | rst => exact absurd rfl hx
  | _ => exact .inl (by simp)

/-- No row of R181's table leaves FATAL. -/
theorem not_listedTransition_fatal (x : Input) (y : XState) : ¬ ListedTransition x .fatal y := by
  simp [ListedTransition]

/-- Settles O37: R181's table, with IDLE as the only state where the CPU owns the bundle. -/
theorem onlyListedTransitions : Obligations.OnlyListedTransitions := by
  intro s t hi h hx
  obtain ⟨rest, d, hc⟩ := step_case h
  exact hc.xstate_cases hx fun _ => hi.ownerIdle.mp

end Sys2Proof.Machine
end

section
/-! SUPPORT. The sequencer's and the timer's steps where they are enabled (spec/42_transfer_engine.md R183, R187, R188),
O31 and O35. -/

namespace Sys2Proof.Machine

theorem stepT1_of_asserted {s : State} (h : s.xstate = .asserted) : stepT1 s = .next (s.setXState .transferring) :=
  if_pos h

theorem stepT4_of_completed {s : State} (h : s.xstate = .completed) : stepT4 s = .next (s.setXState .guard) :=
  if_pos h

/-- Settles O31: T1 and T4 each write XSTATE. -/
theorem sequencerSteps : Obligations.SequencerSteps :=
  ⟨fun _ => stepT1_of_asserted, fun _ => stepT4_of_completed⟩

/-- Settles O35: T5 writes the bundle and the pending bit. -/
theorem guardEndGivesBundleBack : Obligations.GuardEndGivesBundleBack := fun _ => stepT5_of_guard

end Sys2Proof.Machine
end

section
/-! SUPPORT. The take of the bundle and the direction that stays with it (spec/42_transfer_engine.md R182,
spec/44_control.md R252), and O21. -/

namespace Sys2Proof.Machine

theorem exec_wCtrl_of_not_idle {s : State} (h : s.xstate ≠ .idle) (v : Word) : FailsWith (.wCtrl v) s .busy :=
  if_neg h

/-- Settles O21: the gate, the three writes behind it, and ASSERTED as a state that refuses a write to CTRL. -/
theorem xferStartTakesBundle : Obligations.XferStartTakesBundle := by
  refine ⟨encodedBy_of_decodeCmd rfl, bundleGate_of_exec_eq_gate exec_xferStart, fun _ => exec_xferStart_of_open,
    fun s t hg h => ?_⟩
  cases (exec_xferStart_of_open hg).symm.trans h
  exact ⟨rfl, exec_wCtrl_of_not_idle XState.noConfusion⟩

end Sys2Proof.Machine
end

section
/-! SUPPORT. The completion of a transfer (spec/42_transfer_engine.md R184, R185) in each direction, what a transmit
transfer keeps until then, O32 and O33. -/

namespace Sys2Proof.Machine

theorem stepT2_of_transmit {s : State} (hx : s.xstate = .transferring) (hd : s.dir = .transmit) (rx : List Byte) :
    stepT2 rx s = stepT2Transmit s := by rw [stepT2, if_pos hx, hd]

theorem stepT2_of_receive {s : State} (hx : s.xstate = .transferring) (hd : s.dir = .receive) (rx : List Byte) :
    stepT2 rx s = stepT2Receive rx s := by rw [stepT2, if_pos hx, hd]

theorem stepT2Transmit_of_holds {s : State} {F : List Byte} (h : Holds s 0 s.cfg.n F) :
    stepT2Transmit s = .next { s with xstate := .completed, txFrames := s.txFrames ++ [F] } := withBytes_of_holds h _

theorem stepT2Transmit_of_unwritten {s : State} (h : HasUnwritten s 0 s.cfg.n) :
    stepT2Transmit s = .fault .unwrittenByte := withBytes_of_unwritten h _

/-- While a transmit transfer holds the bundle, nothing but reset writes BUF or DIR. -/
theorem StepCase.buf_dir_of_transmit {s t : State} {x : Input} (h : StepCase s x t) (hx : x ≠ .rst)
    (ho : s.owner ≠ .cpu) (hi : s.xstate ≠ .idle) (hd : s.dir = .transmit) : t.buf = s.buf ∧ t.dir = .transmit := by
  cases h with
  | sealFrame F hcpu => exact absurd hcpu ho
  | wBuf a n v hok =>
    obtain ⟨-, -, -, hcpu⟩ := bufferAccessOk_iff.mp hok
    exact absurd hcpu ho
  | wCtrl a d hidle => exact absurd hidle hi
  | t2Receive rx hs hr => exact absurd (hd.symm.trans hr) Direction.noConfusion
  | t3 hs => simp [hd]
  | rst => exact absurd rfl hx
  | _ => exact ⟨by simp, by simpa using hd⟩

/-- Settles O32: the frame is read whole or meets an unwritten byte, and the last clause is a step case. -/
theorem transmitCompletion : Obligations.TransmitCompletion := by
  refine ⟨fun s rx F hx hd hF => (stepT2_of_transmit hx hd rx).trans (stepT2Transmit_of_holds hF),
    fun s rx hx hd hu => (stepT2_of_transmit hx hd rx).trans (stepT2Transmit_of_unwritten hu),
    fun s t hi ho hd h hx => ?_⟩
  have hcpu : s.owner ≠ .cpu := by simp [ho]
  obtain ⟨rest, d, hc⟩ := step_case h
  exact hc.buf_dir_of_transmit hx hcpu (mt hi.ownerIdle.mpr hcpu) hd

@[simp] theorem length_rxFrame (rx : List Byte) (base n : Nat) : (rxFrame rx base n).length = n := by
  simp [rxFrame]

/-- An input that names all N bytes leaves no byte free. -/
theorem rxFrame_length_self (d : List Byte) (base : Nat) : rxFrame d base d.length = d := by
  refine List.ext_getElem (length_rxFrame _ _ _) fun i _ hi => ?_
  simp [rxFrame, rxByte, hi]

/-- The cells of a buffer written from its first cell on. -/
theorem holds_setBytes_nil (s : State) (bs : List Byte) :
    Holds { s with buf := Memory.setBytes [] 0 bs } 0 bs.length bs := by
  refine ⟨rfl, fun k hk => ?_⟩
  simp [Memory.get_setBytes, hk]

theorem get_setBytes_nil_beyond {bs : List Byte} {i : Nat} (h : bs.length ≤ i) :
    Memory.get (Memory.setBytes [] 0 bs) i = none := by
  simp [Memory.get_setBytes, h.not_gt]

theorem holds_rxFrame (s : State) (rx : List Byte) (base n : Nat) :
    Holds { s with buf := Memory.setBytes [] 0 (rxFrame rx base n) } 0 n (rxFrame rx base n) := by
  simpa using holds_setBytes_nil s (rxFrame rx base n)

/-- Settles O33: the buffer after T2 holds the received frame, which is the named bytes where they are N. -/
theorem receiveCompletion : Obligations.ReceiveCompletion := by
  refine ⟨fun s d hx hr hl => ⟨_, stepT2_of_receive hx hr d, ?_⟩,
    fun s rx hx hr => ⟨_, _, stepT2_of_receive hx hr rx, holds_rxFrame s rx s.draws s.cfg.n, fun i hi => ?_⟩⟩
  · rw [← hl, rxFrame_length_self]
    exact holds_setBytes_nil s d
  · exact get_setBytes_nil_beyond (by simpa using hi)

end Sys2Proof.Machine
end

section
/-! SUPPORT. What the gate and the bus refuse while the DMA owns the bundle (spec/42_transfer_engine.md R189), and
O42. -/

namespace Sys2Proof.Machine

theorem Inv.owner_dma {s : State} (h : Inv s) (hx : s.xstate ≠ .idle) : s.owner = .dma := by
  cases ho : s.owner with
  | cpu => exact absurd (h.ownerIdle.mp ho) hx
  | dma => rfl

theorem Inv.csN_low {s : State} (h : Inv s) (hx : s.xstate ≠ .idle) : s.csN = false :=
  Bool.eq_false_iff.mpr (mt h.csIdle.mp hx)

/-- R91's commands that need the bundle are those behind the gate of the bundle. -/
theorem bundleGate_of_mem {i : Instr} (h : i ∈ bundleCommands) : BundleGate i := by
  simp only [bundleCommands, List.mem_cons, List.not_mem_nil, or_false] at h
  rcases h with rfl | rfl | rfl | rfl | rfl | rfl
  · exact bundleGate_of_exec_eq_gate exec_csum
  · exact bundleGate_of_exec_eq_gate exec_crc
  · exact bundleGate_of_exec_eq_gate exec_sealFrame
  · exact bundleGate_of_exec_eq_gate exec_validate
  · exact bundleGate_of_exec_eq_gate exec_consume
  · exact bundleGate_of_exec_eq_gate exec_xferStart

theorem BundleGate.busy_or_fatal {i : Instr} (h : BundleGate i) {s : State} (ho : s.owner = .dma) :
    FailsWith i s .busy ∨ FailsWith i s .fatal := by
  by_cases hx : s.xstate = .fatal
  · exact .inr (h.1 s hx)
  · exact .inl (h.2 s hx ho)

/-- R64(f): every access in the window is refused, whatever its form. -/
theorem performAccess_of_dma {s : State} {a : Access} (ho : s.owner = .dma) (ha : InBufferWindow s.cfg a.off) :
    performAccess a s = .next { s with resp := .busError, ownErr := true } := by
  have href : Refused s a := by simp [Refused, ha, ho]
  rw [performAccess_of_refused href, State.busError_of_dma ⟨ha, ho⟩]

/-- Settles O42: the three cases by XSTATE, and outside IDLE the gate and R64(f), since the DMA owns the bundle. -/
theorem exclusiveOwnership : Obligations.ExclusiveOwnership := by
  intro s hi
  refine ⟨?_, fun hx => ⟨fun i hm => (bundleGate_of_mem hm).busy_or_fatal (hi.owner_dma hx),
    fun a => performAccess_of_dma (hi.owner_dma hx)⟩⟩
  by_cases hx : s.xstate = .idle
  · exact .inl ⟨hi.ownerIdle.mpr hx, hx, hi.csIdle.mpr hx⟩
  · refine .inr ?_
    have ho := hi.owner_dma hx
    have hcs := hi.csN_low hx
    cases hs : s.xstate with
    | idle => exact absurd hs hx
    | fatal => exact .inr ⟨ho, rfl, hcs⟩
    | _ => exact .inl ⟨ho, by simp, hcs⟩

end Sys2Proof.Machine
end

section
/-! SUPPORT. The failure of a transfer (spec/42_transfer_engine.md R186): the fatal entry in each direction, what FATAL
refuses and keeps, and O34. -/

namespace Sys2Proof.Machine

theorem State.enterFatal_of_transmit {s : State} (h : s.dir = .transmit) :
    s.enterFatal = { s with xstate := .fatal, irqStatus := s.irqStatus ||| 0b10 } :=
  if_neg (by simp [h])

theorem State.enterFatal_of_receive {s : State} (h : s.dir = .receive) :
    s.enterFatal = { s with xstate := .fatal, irqStatus := s.irqStatus ||| 0b10, buf := [] } :=
  if_pos h

theorem failsWith_fatal_of_mem {i : Instr} (h : i ∈ fatalCommands) {s : State} (hx : s.xstate = .fatal) :
    FailsWith i s .fatal := by
  rcases List.mem_append.mp h with hb | hc
  · exact (bundleGate_of_mem hb).1 s hx
  · simp only [List.mem_cons, List.not_mem_nil, or_false] at hc
    rcases hc with rfl | rfl
    · exact (exec_sessionReset s).trans (gate_fatal hx)
    · exact (exec_clearErrs s).trans (gate_fatal hx)

/-- FATAL stays, since no row of R181's table leaves it. -/
theorem StepCase.xstate_of_fatal {s t : State} {x : Input} (h : StepCase s x t) (hx : x ≠ .rst)
    (hs : s.xstate = .fatal) : t.xstate = .fatal := by
  rcases h.xstate_cases hx fun hn => absurd hs hn with ht | ht
  · exact ht.trans hs
  · exact absurd (hs ▸ ht) (not_listedTransition_fatal _ _)

/-- The bundle is never returned in FATAL. -/
theorem StepCase.owner_of_fatal {s t : State} {x : Input} (h : StepCase s x t) (hx : x ≠ .rst)
    (hs : s.xstate = .fatal) (ho : s.owner = .dma) : t.owner = .dma := by
  rcases h.bundle_cases with ⟨-, hto⟩ | ⟨-, -, hto⟩ | ⟨-, hg, -⟩ | ⟨hr, -⟩
  · exact hto.trans ho
  · exact hto
  · exact absurd (hs.symm.trans hg) XState.noConfusion
  · exact absurd hr hx

/-- Settles O34: the two entries, and in the state they lead to the DMA owns the bundle in FATAL. -/
theorem transferFailureIsFatal : Obligations.TransferFailureIsFatal := by
  refine ⟨fun s hx hd => ?_, fun s hx hd => ?_, fun s t hi hx h => ?_⟩
  · exact (stepT3_of_transferring hx).trans (congrArg _ (State.enterFatal_of_transmit hd))
  · exact (stepT3_of_transferring hx).trans (congrArg _ (State.enterFatal_of_receive hd))
  · cases (stepT3_of_transferring hx).symm.trans h
    have hs := s.enterFatal_xstate
    have ho : s.enterFatal.owner = .dma := s.enterFatal_owner.trans (hi.owner_dma (by simp [hx]))
    refine ⟨fun i hm => failsWith_fatal_of_mem hm hs, fun a => performAccess_of_dma ho, fun r => rfl,
      fun x u hne hu => ?_⟩
    have hc := perform_case hu
    exact ⟨hc.xstate_of_fatal hne hs, (hc.owner_of_fatal hne hs ho).trans ho.symm⟩

end Sys2Proof.Machine
end

section
/-! SUPPORT. The STATUS word as the sum of its fields (spec/10_state.md R39), a successful transfer step by step
(spec/42_transfer_engine.md R190), and O44. -/

namespace Sys2Proof.Machine

/-! ### STATUS -/

theorem toNat_append_eq_add {m n : Nat} (x : BitVec m) (y : BitVec n) : (x ++ y).toNat = 2 ^ n * x.toNat + y.toNat := by
  rw [BitVec.toNat_append, ← Nat.shiftLeft_add_eq_or_of_lt y.isLt, Nat.shiftLeft_eq, Nat.mul_comm]

/-- R39's places of the fields. -/
theorem statusWord_toNat (s : State) : (statusWord s).toNat =
    s.xstate.code.toNat + 2 ^ 3 * s.owner.code.toNat + 2 ^ 4 * s.csN.toNat + 2 ^ 5 * (s.xstate == .fatal).toNat +
      2 ^ 6 * s.prevValid.toNat + 2 ^ 7 * s.ownErr.toNat + 2 ^ 8 * s.lastReason.code.toNat + 2 ^ 12 * s.lastGap.toNat +
      2 ^ 13 * s.lastRetro.toNat + 2 ^ 14 * s.lastDup.toNat + 2 ^ 16 * s.cmdErr.code.toNat := by
  have hzero : (0 : BitVec 1).toNat = 0 := rfl
  rw [statusWord, BitVec.toNat_setWidth_of_le (by decide)]
  simp only [toNat_append_eq_add, BitVec.toNat_ofBool, hzero]
  omega

/-- STATUS bits 5:0: XSTATE, OWNER, CS_N and the FATAL flag. -/
theorem statusWord_mod_64 (s : State) : (statusWord s).toNat % 64 =
    s.xstate.code.toNat + 8 * s.owner.code.toNat + 16 * s.csN.toNat + 32 * (s.xstate == .fatal).toNat := by
  have hx := s.xstate.code.isLt
  have ho := s.owner.code.isLt
  have hc := s.csN.toNat_le
  have hf := (s.xstate == .fatal).toNat_le
  rw [statusWord_toNat]
  omega

/-- STATUS from bit 6 on holds none of the four. -/
theorem statusWord_div_64 (s : State) : (statusWord s).toNat / 64 =
    s.prevValid.toNat + 2 * s.ownErr.toNat + 4 * s.lastReason.code.toNat + 64 * s.lastGap.toNat +
      128 * s.lastRetro.toNat + 256 * s.lastDup.toNat + 1024 * s.cmdErr.code.toNat := by
  have hx := s.xstate.code.isLt
  have ho := s.owner.code.isLt
  have hc := s.csN.toNat_le
  have hf := (s.xstate == .fatal).toNat_le
  rw [statusWord_toNat]
  omega

/-! ### The transfer -/

section
variable {s : State} {rest : List Input} (hc : s.cfg.admitted = true)
include hc

theorem step_xferStart_of_open (hin : s.inputs = .bus (Access.command 6) :: rest) (hg : GateOpen s) :
    step s = .next { s with inputs := rest, xstate := .asserted, owner := .dma, csN := false, resp := .accepted } :=
  (step_cons hc hin).trans (exec_xferStart_of_open (s := { s with inputs := rest }) hg)

theorem step_t1_of_asserted (hin : s.inputs = .t1 :: rest) (hx : s.xstate = .asserted) :
    step s = .next { s with inputs := rest, xstate := .transferring } :=
  (step_cons hc hin).trans (stepT1_of_asserted (s := { s with inputs := rest }) hx)

/-- In either direction T2 completes; besides XSTATE it writes only BUF, the draws and the emitted frames. -/
theorem step_t2_of_transferring {rx : List Byte} (hin : s.inputs = .t2 rx :: rest) (hx : s.xstate = .transferring)
    (hF : s.dir = .transmit → ∃ F, Holds s 0 s.cfg.n F) :
    ∃ m d fs, step s = .next { s with inputs := rest, xstate := .completed, buf := m, draws := d, txFrames := fs } := by
  rw [step_cons hc hin]
  obtain hd | hd : s.dir = .transmit ∨ s.dir = .receive := by cases s.dir <;> simp
  · obtain ⟨F, hF⟩ := hF hd
    exact ⟨_, _, _, (stepT2_of_transmit (s := { s with inputs := rest }) hx hd rx).trans (stepT2Transmit_of_holds hF)⟩
  · exact ⟨_, _, _, stepT2_of_receive (s := { s with inputs := rest }) hx hd rx⟩

theorem step_t4_of_completed (hin : s.inputs = .t4 :: rest) (hx : s.xstate = .completed) :
    step s = .next { s with inputs := rest, xstate := .guard } :=
  (step_cons hc hin).trans (stepT4_of_completed (s := { s with inputs := rest }) hx)

theorem step_t5_of_guard (hin : s.inputs = .t5 :: rest) (hx : s.xstate = .guard) :
    step s = .next { s with inputs := rest, csN := true, owner := .cpu, xstate := .idle,
                            irqStatus := s.irqStatus ||| 0b01 } :=
  (step_cons hc hin).trans (stepT5_of_guard (s := { s with inputs := rest }) hx)

end

/-- Settles O44: the five steps in turn, each enabled by the one before it, and STATUS read off its two halves. -/
theorem successfulTransferSequence : Obligations.SuccessfulTransferSequence := by
  intro s rx hi hx hF hin
  have hc := hi.cfgAdmitted
  have ho := hi.ownerIdle.mpr hx
  have hcs := hi.csIdle.mpr hx
  have hopen : GateOpen s := ⟨by simp [hx], ho⟩
  obtain ⟨m, d, fs, hT2⟩ := step_t2_of_transferring (rest := [.t4, .t5])
    (s := { s with inputs := [.t2 rx, .t4, .t5], xstate := .transferring, owner := .dma, csN := false
                   resp := .accepted }) hc rfl rfl hF
  refine ⟨_, _, _, _, _, step_xferStart_of_open hc hin hopen, step_t1_of_asserted hc rfl rfl, hT2,
    step_t4_of_completed hc rfl rfl, step_t5_of_guard hc rfl rfl, ?_, ?_, ?_, rfl⟩
  · simp [statusWord_mod_64, hx, ho, hcs, XState.code, Owner.code]
  · simp [statusWord_div_64]
  · simp

end Sys2Proof.Machine
end

section
/-! SUPPORT. The sequence tracker (spec/43_sequence_tracker.md R221 to R224): the tracker's move in each case of an
outcome, CONSUME on the buffer, SESSION_RESET, and O18, O60, O19 and O20. -/

namespace Sys2Proof.Machine

/-! ### The tracker's move in each case of an outcome -/

theorem State.track_ok_of_not_gap {s : State} {q : Word} (h : ¬ (s.prevValid = true ∧ 1 < (q - s.prevSeq).toNat)) :
    s.track .ok q = { s with prevSeq := q, prevValid := true } := by
  have hgap : ¬ gapFlag .ok q s.prevValid s.prevSeq = true := fun hf => h (gapFlag_iff.mp hf).2
  rw [State.track, if_pos rfl, if_neg hgap]
  rfl

theorem State.track_ok_of_gap {s : State} {q : Word} (h : s.prevValid = true ∧ 1 < (q - s.prevSeq).toNat) :
    s.track .ok q = { s with prevSeq := q, prevValid := true, errCount := satInc s.errCount } := by
  rw [State.track, if_pos rfl, if_pos (gapFlag_iff.mpr ⟨rfl, h⟩)]
  rfl

theorem State.track_retrograde {s : State} {q : Word} (h : q.toNat < s.prevSeq.toNat) :
    s.track .seq q = { s with prevSeq := q, errCount := satInc s.errCount } := by
  rw [State.track, if_neg Reason.noConfusion, if_pos (retroFlag_iff.mpr ⟨rfl, h⟩)]
  rfl

theorem State.track_rejected {s : State} {r : Reason} {q : Word} (hr : r ≠ .ok)
    (h : ¬ (r = .seq ∧ q.toNat < s.prevSeq.toNat)) : s.track r q = { s with errCount := satInc s.errCount } := by
  rw [State.track, if_neg hr, if_neg (mt retroFlag_iff.mp h)]
  rfl

/-- The tracker's move neither reads nor writes the bus slave's answer. -/
theorem State.track_reply (s : State) (r : Reason) (q : Word) (b : BusResponse) :
    (s.track r q).reply b = (s.reply b).track r q := by
  simp only [State.track, apply_ite (State.reply · b), apply_ite (State.setPrev · true q)]
  rfl

/-! ### CONSUME -/

theorem exec_consume_of_some {s : State} {r : Reason} {q : Word} (hg : GateOpen s) (h : validateBuf s = some (r, q)) :
    exec .consume s = .next ((recorded s r q).track r q) := by
  rw [exec_consume, gate_of_open hg, withOutcome, h, ← setOutcome_reply, ← State.track_reply]
  rfl

/-- On a written buffer CONSUME records Validate's outcome and moves the tracker by it. -/
theorem exec_consume_of_holds {s : State} {F : List Byte} {r : Reason} {q : Word} (hc : s.cfg.admitted = true)
    (hg : GateOpen s) (hF : Holds s 0 s.cfg.n F) (hv : validate s.cfg F s.prevValid s.prevSeq = (r, q)) :
    exec .consume s = .next ((recorded s r q).track r q) := by
  obtain ⟨-, -, hends, -⟩ := admitted_sizes hc
  obtain ⟨-, -, hcsum, hcrc, hn⟩ := admitted_fields hc
  exact exec_consume_of_some hg (hv ▸ validateBuf_of_holds hF (by omega) (by omega) (by omega))

theorem gate_fault_iff {nb : Bool} {s : State} {k : State → Result} {f : Fault} :
    gate nb s k = .fault f ↔ gateError nb s = none ∧ k s = .fault f := by
  cases h : gateError nb s <;> simp [gate, h]

/-- A validation that goes on with a completion faults only on a byte that Validate reads. -/
theorem withOutcome_complete_fault_iff {s : State} {g : Reason → Word → State} {f : Fault} :
    (withOutcome s fun r q => complete (g r q)) = .fault f ↔ validateBuf s = none := by
  cases f
  cases h : validateBuf s <;> simp [withOutcome, complete, h]

/-- Settles O18: one gate and one reading of the buffer for VALIDATE and CONSUME, and the tracker's four moves. -/
theorem consumeMovesTracker : Obligations.ConsumeMovesTracker := by
  refine ⟨encodedBy_of_decodeCmd rfl, bundleGate_of_exec_eq_gate exec_consume, fun s f => ?_,
    fun s F r q hc hg hF hv => ?_⟩
  · simp only [exec_consume, exec_validate, gate_fault_iff, withOutcome_complete_fault_iff]
  · rw [exec_consume_of_holds hc hg hF hv]
    refine ⟨?_, ?_, ?_, fun hr hn => congrArg _ (State.track_rejected hr hn)⟩
    · rintro rfl hn
      exact congrArg _ (State.track_ok_of_not_gap hn)
    · rintro rfl hgap
      exact congrArg _ (State.track_ok_of_gap hgap)
    · rintro rfl hlt
      exact congrArg _ (State.track_retrograde hlt)

/-! ### The wrap-around and the end of a session -/

/-- No frame is rejected with SEQ where no previous sequence is held. -/
theorem validate_false_ne_seq (c : Config) (F : List Byte) (prev : Word) : (validate c F false prev).1 ≠ .seq :=
  fun h => Bool.false_ne_true ((validate_sequence rfl).1 h).1

/-- Settles O60: no sequence is greater than 0xFFFFFFFF, and every one but itself is smaller. -/
theorem sequenceWrapAround : Obligations.SequenceWrapAround := by
  refine ⟨fun s F hc hg hF hs hpv hprev => ?_, validate_false_ne_seq⟩
  have hstale : ¬ s.prevSeq.toNat < (seqF s.cfg F).toNat := by bv_omega
  rw [exec_consume_of_holds hc hg hF (validate_of_staleSeq (structOk_iff.mp hs) ⟨hpv, hstale⟩)]
  refine ⟨fun hq => ?_, fun hq => ?_⟩
  · rw [hq]
    exact congrArg _ (State.track_rejected Reason.noConfusion fun ⟨_, hlt⟩ => lt_irrefl _ (hprev ▸ hlt))
  · have hlt : (seqF s.cfg F).toNat < s.prevSeq.toNat := by bv_omega
    exact congrArg _ (State.track_retrograde hlt)

/-- Settles O19: the saturating word, and an addition below it that does not wrap. -/
theorem tallySaturates : Obligations.TallySaturates := by
  refine fun x => ⟨fun h => if_pos h, fun h => ?_⟩
  rw [satInc, if_neg h]
  bv_omega

theorem exec_sessionReset_of_not_fatal {s : State} (h : s.xstate ≠ .fatal) :
    exec .sessionReset s = .next { s with prevValid := false, prevSeq := 0, resp := .accepted } :=
  (exec_sessionReset s).trans (gate_open h nofun)

theorem failsWith_sessionReset {s : State} (h : s.xstate = .fatal) : FailsWith .sessionReset s .fatal :=
  (exec_sessionReset s).trans (gate_fatal h)

/-- Settles O20: in FATAL and outside it, the next state has the same XSTATE and is its own next state. -/
theorem sessionResetEndsSession : Obligations.SessionResetEndsSession := by
  refine ⟨encodedBy_of_decodeCmd rfl, fun _ => failsWith_sessionReset, fun _ => exec_sessionReset_of_not_fatal,
    fun s t h => ?_, validate_false_ne_seq⟩
  by_cases hx : s.xstate = .fatal
  · cases (failsWith_sessionReset hx).symm.trans h
    exact failsWith_sessionReset hx
  · cases (exec_sessionReset_of_not_fatal hx).symm.trans h
    exact exec_sessionReset_of_not_fatal hx

end Sys2Proof.Machine
end

section
/-! SUPPORT. The control commands and the register writes (spec/44_control.md R250 to R256): NOP and CLEAR_ERRS, CTRL,
the other written registers as the fields they set, O10, O11 and O23 to O27. -/

namespace Sys2Proof.Machine

/-! ### NOP and CLEAR_ERRS -/

/-- NOP has no gate: it completes in every state. -/
theorem exec_nop (s : State) : exec .nop s = .next { s with resp := .accepted } := rfl

theorem exec_clearErrs_of_not_fatal {s : State} (h : s.xstate ≠ .fatal) :
    exec .clearErrs s = .next { s with errCount := 0, cmdErr := .none, ownErr := false, resp := .accepted } :=
  (exec_clearErrs s).trans (gate_open h nofun)

theorem failsWith_clearErrs {s : State} (h : s.xstate = .fatal) : FailsWith .clearErrs s .fatal :=
  (exec_clearErrs s).trans (gate_fatal h)

/-- Settles O10: NOP's word and its completion without a gate. -/
theorem nopChangesNothing : Obligations.NopChangesNothing := ⟨encodedBy_of_decodeCmd rfl, exec_nop⟩

/-- Settles O11: the gate without the bundle, closed in FATAL and open in every other state. -/
theorem clearErrsClears : Obligations.ClearErrsClears :=
  ⟨encodedBy_of_decodeCmd rfl, fun _ => failsWith_clearErrs, fun _ => exec_clearErrs_of_not_fatal⟩

/-! ### CTRL -/

theorem exec_wCtrl_of_idle {s : State} (h : s.xstate = .idle) (v : Word) :
    exec (.wCtrl v) s = .next { s with dir := Direction.ofBit (v.getLsbD 0), resp := .accepted } := if_pos h

/-- Settles O23: the two values of bit 0 in IDLE, and BUSY outside it. -/
theorem ctrlWriteOnlyInIdle : Obligations.CtrlWriteOnlyInIdle := by
  refine ⟨fun s v hx hb => ?_, fun s v hx hb => ?_, fun s v hx => exec_wCtrl_of_not_idle hx v⟩
  · rw [exec_wCtrl_of_idle hx, hb]
    rfl
  · rw [exec_wCtrl_of_idle hx, hb]
    rfl

/-! ### IRQ_STATUS, IRQ_ENABLE, LEN and the read-only registers -/

theorem exec_wIrqStatus (v : Word) (s : State) : exec (.wIrqStatus v) s =
    .next { s with irqStatus := s.irqStatus &&& ~~~ (v.setWidth 2), resp := .accepted } := rfl

theorem exec_wIrqEnable (v : Word) (s : State) : exec (.wIrqEnable v) s =
    .next { s with irqEnable := v.setWidth 2, resp := .accepted } := rfl

theorem exec_wLen (v : Word) (s : State) : exec (.wLen v) s =
    .next { s with len := v.setWidth 16, resp := .accepted } := rfl

theorem exec_wRoReg (r : RoReg) (v : Word) (s : State) : exec (.wRoReg r v) s = .next { s with resp := .accepted } := rfl

/-- Write one to clear: a bit stays where it is not written as 1. -/
theorem getLsbD_and_not_setWidth {w n k : Nat} (x : BitVec w) (v : BitVec n) (hk : k < w) :
    (x &&& ~~~ (v.setWidth w)).getLsbD k = (x.getLsbD k && !v.getLsbD k) := by
  simp [hk]

/-- Settles O24: the pending bits left are those not written as 1. -/
theorem irqStatusWriteOneToClear : Obligations.IrqStatusWriteOneToClear := fun s v =>
  ⟨_, exec_wIrqStatus v s, fun _ => getLsbD_and_not_setWidth s.irqStatus v⟩

/-- Settles O25: the low two bits of the written value. -/
theorem irqEnableWrite : Obligations.IrqEnableWrite := fun s v => ⟨_, exec_wIrqEnable v s, BitVec.toNat_setWidth 2 v⟩

/-- Settles O26: the low half of the written value. -/
theorem lenWrite : Obligations.LenWrite := fun s v => ⟨_, exec_wLen v s, BitVec.toNat_setWidth 16 v⟩

/-- Settles O27: the write to a read-only register only answers. -/
theorem readOnlyWriteIgnored : Obligations.ReadOnlyWriteIgnored := fun s r v => exec_wRoReg r v s

end Sys2Proof.Machine
end

section
/-! SUPPORT. The register reads (spec/44_control.md R257): each register's value as a number, the codes of STATUS, and
O28. -/

namespace Sys2Proof.Machine

theorem exec_rReg (r : Reg) (s : State) : exec (.rReg r) s = .next { s with resp := .value (readReg s r) } := rfl

/-- A test of a two-valued field, as the bit that shows it. -/
theorem toNat_beq {α : Type} [DecidableEq α] (a b : α) : (a == b).toNat = if a = b then 1 else 0 := by
  by_cases h : a = b <;> simp [h]

theorem Direction.code_toNat (d : Direction) : d.code.toNat = if d = .receive then 1 else 0 := by cases d <;> rfl

theorem Owner.code_toNat (o : Owner) : o.code.toNat = if o = .dma then 1 else 0 := by cases o <;> rfl

/-- R36's places of N and of the two byte orders; R13(a) bounds N, so that its 16 bits hold it whole. -/
theorem configWord_toNat {c : Config} (h : c.n ≤ 3840) : (configWord c).toNat =
    c.n + (if c.csumOrder = .le then 2 ^ 16 else 0) + (if c.hdrOrder = .be then 2 ^ 17 else 0) := by
  rw [configWord, BitVec.toNat_setWidth_of_le (by decide), toNat_append_eq_add, toNat_append_eq_add, BitVec.toNat_ofBool,
    BitVec.toNat_ofBool, BitVec.toNat_ofNat, Nat.mod_eq_of_lt (by omega), toNat_beq, toNat_beq]
  split <;> split <;> omega

/-- Settles O28: the stored registers are zero-extended, CONFIG and STATUS are the sums of their fields, and the codes
are their tables. -/
theorem registerRead : Obligations.RegisterRead := by
  refine ⟨fun s r => exec_rReg r s, fun s => ⟨rfl, rfl, rfl, rfl, rfl, ?ctrl, ?len, ?irqStatus, ?irqEnable,
    configWord_toNat, ?status⟩, fun x => ?_, fun r => ?_, fun e => ?_⟩
  case ctrl => exact (BitVec.toNat_setWidth_of_le (by decide)).trans s.dir.code_toNat
  case len => exact BitVec.toNat_setWidth_of_le (by decide)
  case irqStatus => exact BitVec.toNat_setWidth_of_le (by decide)
  case irqEnable => exact BitVec.toNat_setWidth_of_le (by decide)
  case status => rw [readReg, statusWord_toNat, Owner.code_toNat, toNat_beq]
  · cases x <;> rfl
  · cases r <;> rfl
  · cases e <;> rfl

end Sys2Proof.Machine
end

section
/-! SUPPORT. The buffer accesses (spec/44_control.md R258, R259): the offset of an accepted index, the bytes of a stored
value, O29 and O30. -/

namespace Sys2Proof.Machine

/-! ### The offset of a buffer index -/

theorem BufferAccepted.index_lt {s : State} {n : Width} {i : Nat} (h : BufferAccepted s n i) : i < s.cfg.n := by
  obtain ⟨-, -, hend⟩ := h
  have hpos : 0 < n.bytes := by cases n <;> decide
  omega

/-- R13(a) keeps the buffer in the 4 KiB window, so that the 12 bits of an offset hold every index. -/
theorem bufferOffset_toNat {s : State} {n : Width} {i : Nat} (hc : s.cfg.admitted = true) (h : BufferAccepted s n i) :
    (BitVec.ofNat 12 (0x100 + i)).toNat = 0x100 + i := by
  obtain ⟨-, -, -, hn⟩ := admitted_sizes hc
  have hlt := h.index_lt
  exact Nat.mod_eq_of_lt (by omega)

theorem bufIndex_bufferOffset {s : State} {n : Width} {i : Nat} (hc : s.cfg.admitted = true)
    (h : BufferAccepted s n i) : bufIndex (BitVec.ofNat 12 (0x100 + i)) = i := by
  rw [bufIndex, bufferOffset_toNat hc h, bufBase, Nat.add_sub_cancel_left]

/-- The window starts at a multiple of every width, so that an aligned index has an aligned offset. -/
theorem bufferOffset_aligned {n : Width} {i : Nat} (h : i % n.bytes = 0) : (0x100 + i) % n.bytes = 0 := by
  have hbase : n.bytes ∣ 0x100 := by cases n <;> decide
  exact Nat.mod_eq_zero_of_dvd (hbase.add (Nat.dvd_of_mod_eq_zero h))

/-- The accepted accesses of R258 and R259 pass the machine's own check. -/
theorem bufferAccess_of_accepted {s : State} {n : Width} {i : Nat} (hc : s.cfg.admitted = true)
    (h : BufferAccepted s n i) (k : Nat → Result) : bufferAccess s n (BitVec.ofNat 12 (0x100 + i)) k = k i := by
  have hidx := bufIndex_bufferOffset hc h
  have hoff := bufferOffset_toNat hc h
  have hlt := h.index_lt
  obtain ⟨ho, ha, hend⟩ := h
  have hok : bufferAccessOk s n (BitVec.ofNat 12 (0x100 + i)) = true := by
    rw [bufferAccessOk_iff, InBufferWindow, hidx, hoff]
    exact ⟨⟨Nat.le_add_right _ _, Nat.add_lt_add_left hlt _⟩, bufferOffset_aligned ha, hend, ho⟩
  rw [bufferAccess_of_ok hok, hidx]

/-! ### The read -/

/-- At most four bytes: their value fits the data of a read. -/
theorem leNat_lt_of_width {n : Width} {bs : List Byte} (h : bs.length = n.bytes) : leNat bs < 2 ^ 32 :=
  (leNat_lt bs).trans_le (by rw [h]; cases n <;> decide)

/-- Settles O29: an accepted access reads its cells, whose value is the sum of the bytes, or meets an unwritten one. -/
theorem bufferRead : Obligations.BufferRead := by
  refine ⟨fun s n i bs hc ha hbs => ⟨BitVec.ofNat 32 (leNat bs), ?_, ?_⟩, fun s n i hc ha hu => ?_⟩
  · rw [exec_rBuf, bufferAccess_of_accepted hc ha, withBytes_of_holds hbs]
    rfl
  · rw [BitVec.toNat_ofNat, Nat.mod_eq_of_lt (leNat_lt_of_width hbs.1), leNat_eq_sum, hbs.1]
  · rw [exec_rBuf, bufferAccess_of_accepted hc ha, withBytes_of_unwritten hu]

/-! ### The write -/

theorem getElem?_leBytes {w k : Nat} (v : Nat) (hk : k < w) : (leBytes w v)[k]? = some (BitVec.ofNat 8 (v / 256 ^ k)) := by
  induction w generalizing v k with
  | zero => omega
  | succ w ih =>
    cases k with
    | zero => simp [leBytes]
    | succ k => rw [leBytes, List.getElem?_cons_succ, ih _ (by omega), Nat.div_div_eq_div_mul, pow_succ']

/-- Byte k of a word, counted from its least significant one. -/
theorem ofNat_div_eq_extractLsb' (v : Word) (k : Nat) : BitVec.ofNat 8 (v.toNat / 256 ^ k) = v.extractLsb' (8 * k) 8 := by
  rw [BitVec.extractLsb', Nat.shiftRight_eq_div_pow, pow_mul]
  rfl

/-- Settles O30: the store behind the accepted access, read back inside its range and outside it. -/
theorem bufferWrite : Obligations.BufferWrite := by
  refine fun s n i v hc ha => ⟨?_, fun k hk => ?_, fun j hj => ?_⟩
  · rw [exec_wBuf, bufferAccess_of_accepted hc ha]
    rfl
  · rw [Memory.get_setBytes, length_leBytes, if_pos (by omega), Nat.add_sub_cancel_left, getElem?_leBytes _ hk,
      ofNat_div_eq_extractLsb']
  · rw [Memory.get_setBytes, length_leBytes, if_neg hj]

end Sys2Proof.Machine
end

section
/-! SUPPORT. The command errors (spec/60_exceptions.md R272, R273): the decoder's two classes of command words, what
every command error does, who writes CMD_ERR and OWN_ERR, and O50. -/

namespace Sys2Proof.Machine

/-! ### The command words of R91's two classes -/

theorem decodeCmd_of_lt_nine {w : Word} (h : w.toNat < 9) : ∃ i, decodeCmd w = .ok i := by
  cases hd : decodeCmd w with
  | ok i => exact ⟨i, rfl⟩
  | error r => exact absurd (decodeCmd_error hd) h.not_ge

/-- NOP is 0, the commands that need the bundle are 1 to 6, and the other two that FATAL refuses come after. -/
theorem decodeCmd_classes {w : Word} {i : Instr} (h : decodeCmd w = .ok i) :
    w.toNat = 0 ∨ i ∈ bundleCommands ∨ (7 ≤ w.toNat ∧ i ∈ fatalCommands) := by
  rcases decodeCmd_ok h with ⟨rfl, -⟩ | ⟨-, rfl⟩ | ⟨-, rfl⟩ | ⟨-, rfl⟩ | ⟨-, rfl⟩ | ⟨-, rfl⟩ | ⟨-, rfl⟩ | ⟨rfl, rfl⟩ |
    ⟨rfl, rfl⟩
  · exact .inl rfl
  iterate 6 · exact .inr (.inl (by decide))
  iterate 2 · exact .inr (.inr (by decide))

theorem exists_bundleCommand {w : Word} (hw : 1 ≤ w.toNat ∧ w.toNat ≤ 6) :
    ∃ i ∈ bundleCommands, decodeCmd w = .ok i := by
  obtain ⟨i, hd⟩ := decodeCmd_of_lt_nine (w := w) (by omega)
  rcases decodeCmd_classes hd with h0 | hb | ⟨h7, -⟩
  · omega
  · exact ⟨i, hb, hd⟩
  · omega

theorem exists_fatalCommand {w : Word} (hw : 1 ≤ w.toNat ∧ w.toNat ≤ 8) :
    ∃ i ∈ fatalCommands, decodeCmd w = .ok i := by
  obtain ⟨i, hd⟩ := decodeCmd_of_lt_nine (w := w) (by omega)
  rcases decodeCmd_classes hd with h0 | hb | ⟨-, hf⟩
  · omega
  · exact ⟨i, List.mem_append_left _ hb, hd⟩
  · exact ⟨i, hf, hd⟩

/-! ### What a command error does -/

theorem performAccess_of_failsWith {w : Word} {i : Instr} {s : State} {e : CmdErr} (hd : decodeCmd w = .ok i)
    (h : FailsWith i s e) : performAccess (Access.command w) s = .next (s.cmdError e) :=
  (performAccess_of_ok ((decode_command w).trans hd) s).trans h

/-- Whether an input ends with a command error does not depend on the coming inputs and the draws. -/
theorem CommandErrorOf.of_inputs_draws {s : State} {x : Input} {e : CmdErr} {rest : List Input} {d : Nat}
    (h : CommandErrorOf { s with inputs := rest, draws := d } x e) : CommandErrorOf s x e := by
  cases h with
  | illegal w hw => exact .illegal w hw
  | fatal w hw hx => exact .fatal w hw hx
  | busy w hw hx ho => exact .busy w hw hx ho
  | badLen w hw hg hl => exact .badLen w hw hg hl
  | badMode F hg hF hm => exact .badMode F hg hF hm
  | ctrl v hx => exact .ctrl v hx

/-- R272: every command error sets CMD_ERR and answers the access, and nothing else. -/
theorem CommandErrorOf.perform_eq {s : State} {x : Input} {e : CmdErr} (h : CommandErrorOf s x e) :
    perform x s = .next (s.cmdError e) := by
  cases h with
  | illegal w hw => exact performAccess_illegalCommand hw s
  | fatal w hw hx =>
    obtain ⟨i, hi, hd⟩ := exists_fatalCommand hw
    exact performAccess_of_failsWith hd (failsWith_fatal_of_mem hi hx)
  | busy w hw hx ho =>
    obtain ⟨i, hi, hd⟩ := exists_bundleCommand hw
    exact performAccess_of_failsWith hd ((bundleGate_of_mem hi).2 s hx ho)
  | badLen w hw hg hl =>
    rcases hw with rfl | rfl
    · exact performAccess_of_failsWith (w := 1) rfl ((exec_csum_of_open hg).trans (lengthCommand_of_badLen hl _))
    · exact performAccess_of_failsWith (w := 2) rfl ((exec_crc_of_open hg).trans (lengthCommand_of_badLen hl _))
  | badMode F hg hF hm =>
    exact performAccess_of_failsWith (w := 3) rfl ((exec_sealFrame_of_holds hg hF).trans (if_pos hm))
  | ctrl v hx => exact exec_wCtrl_of_not_idle hx v

/-! ### Who writes the two error fields -/

/-- CMD_ERR stays but for a command error, CLEAR_ERRS and reset; OWN_ERR is cleared by the latter two only. -/
theorem StepCase.error_cases {s t : State} {x : Input} (h : StepCase s x t)
    (hclear : x ≠ .bus (Access.command 8)) (hrst : x ≠ .rst) :
    (t.cmdErr = s.cmdErr ∨ ∃ e, CommandErrorOf s x e) ∧ (s.ownErr = true → t.ownErr = true) := by
  cases h with
  | cmdError a e he => exact ⟨.inr ⟨e, he⟩, id⟩
  | busError a => exact ⟨.inl rfl, fun ho => by simp [ho]⟩
  | clearErrs => exact absurd rfl hclear
  | rst => exact absurd rfl hrst
  | _ => exact ⟨.inl (by simp), by simp⟩

/-- Settles O50: what a command error does, and the writers of the two fields from the step cases. -/
theorem errorFieldsAreSticky : Obligations.ErrorFieldsAreSticky := by
  refine ⟨fun s x rest e hc hi he => ?_, fun s t h hne hclear hrst => ?_, fun s t h ho hclear hrst => ?_⟩
  · -- the transport applied backwards: s is the step's own state with its inputs put back
    have he' : CommandErrorOf { s with inputs := rest } x e :=
      CommandErrorOf.of_inputs_draws (rest := s.inputs) (d := s.draws) he
    exact (step_cons hc hi).trans he'.perform_eq
  · obtain ⟨rest, d, hcase⟩ := step_case h
    obtain ⟨hcmd, -⟩ := hcase.error_cases hclear hrst
    exact hcmd.resolve_right fun ⟨e, he⟩ => hne e he.of_inputs_draws
  · obtain ⟨rest, d, hcase⟩ := step_case h
    obtain ⟨-, hown⟩ := hcase.error_cases hclear hrst
    exact hown ho

end Sys2Proof.Machine
end

section
/-! SUPPORT. The irq output (spec/60_exceptions.md R278), and O48. -/

namespace Sys2Proof.Machine

/-- Settles O48: the output's two gates, read as propositions. -/
theorem irqOutput : Obligations.IrqOutput := fun s => by
  rw [State.irq, Bool.or_eq_true, Bool.and_eq_true, Bool.and_eq_true]

end Sys2Proof.Machine
end

section
/-! SUPPORT. The reset step (spec/70_reset_and_hazards.md R300, R301): FATAL's only way out, the events that come too
late for an abandoned transfer, O45 and O47. -/

namespace Sys2Proof.Machine

theorem perform_rst (s : State) : perform .rst s = .next s.rst := rfl

theorem State.rst_irq (s : State) : s.rst.irq = false := init_irq s.cfg

/-- What leaves FATAL is a reset: every other step case stays there. -/
theorem head_eq_rst_of_leaves_fatal {s t : State} (hs : s.xstate = .fatal) (h : step s = .next t)
    (ht : t.xstate ≠ .fatal) : s.head = .rst := by
  by_contra hx
  obtain ⟨rest, d, hc⟩ := step_case h
  exact ht (hc.xstate_of_fatal hx hs)

/-- Settles O45: reset is `State.rst` in every state, and no other step leaves FATAL. -/
theorem resetStep : Obligations.ResetStep :=
  ⟨perform_rst, fun _ _ => head_eq_rst_of_leaves_fatal⟩

/-- The completions, the failure and the guard's end are not enabled in IDLE (R181). -/
theorem perform_late_of_idle {s : State} {x : Input} (hs : s.xstate = .idle)
    (hx : (∃ rx, x = .t2 rx) ∨ x = .t3 ∨ x = .t5) : perform x s = .next s := by
  have htrans : s.xstate ≠ .transferring := by simp [hs]
  have hguard : s.xstate ≠ .guard := by simp [hs]
  rcases hx with ⟨rx, rfl⟩ | rfl | rfl
  · exact if_neg htrans
  · exact if_neg htrans
  · exact if_neg hguard

/-- Settles O47: reset leads to IDLE, where a late event of the transfer changes nothing. -/
theorem resetAbandonsTransfer : Obligations.ResetAbandonsTransfer := by
  intro s t _ h
  cases (perform_rst s).symm.trans h
  refine ⟨s.rst_csN, s.rst_owner, s.rst_xstate, s.rst_txFrames, s.rst_irqStatus, s.rst_irq, fun x u hx hu => ?_⟩
  cases (perform_late_of_idle s.rst_xstate hx).symm.trans hu
  exact ⟨s.rst_txFrames, rfl, s.rst_irqStatus⟩

end Sys2Proof.Machine
end

section
/-! SUPPORT. Decoder and encoder are inverse to each other (spec/30_encoding.md sections 1 to 3): the accesses that decode,
form by form, the packed word of an access (notes/assumptions/7.md), and O1 to O4. -/

namespace Sys2Proof.Machine

/-! ### The decoder on each form of access -/

theorem decode_writeReg (r : Reg) (v : Word) : decode (Access.writeReg r v) = decodeRegWrite r v := by
  cases r <;> rfl

theorem decode_readReg (r : Reg) (d : Word) : decode ⟨.read, 4, r.offset, d⟩ = .ok (.rReg r) := by
  cases r <;> rfl

theorem width_ofNat?_bytes (n : Width) : Width.ofNat? n.bytes = some n := by
  cases n <;> rfl

/-- A buffer form stands above the register region. -/
theorem not_lt_of_bufferForm {n : Width} {off : Offset} (h : bufferForm n off = true) :
    ¬ off.toNat < regionEnd ∧ ¬ off.toNat < bufBase := by
  simp only [bufferForm, Bool.and_eq_true, decide_eq_true_eq] at h
  exact ⟨(lt_of_lt_of_le (by decide) h.1).not_gt, h.1.not_gt⟩

theorem decode_readBuf {n : Width} {off : Offset} (h : bufferForm n off = true) (d : Word) :
    decode ⟨.read, n.bytes, off, d⟩ = .ok (.rBuf n off) := by
  obtain ⟨hr, hb⟩ := not_lt_of_bufferForm h
  simp [decode, hr, hb, width_ofNat?_bytes, h]

theorem decode_writeBuf {n : Width} {off : Offset} (h : bufferForm n off = true) (d : Word) :
    decode ⟨.write, n.bytes, off, d⟩ = .ok (.wBuf n off (dataBytes n d)) := by
  obtain ⟨hr, hb⟩ := not_lt_of_bufferForm h
  simp [decode, hr, hb, width_ofNat?_bytes, h]

theorem decodeRegWrite_toReg (r : RoReg) (v : Word) : decodeRegWrite r.toReg v = .ok (.wRoReg r v) := by
  cases r <;> rfl

theorem dataBytes_of_dataFits {n : Width} {v : Word} (h : dataFits n v = true) : dataBytes n v = v := by
  rw [dataBytes, Nat.mod_eq_of_lt (of_decide_eq_true h), BitVec.ofNat_toNat, BitVec.setWidth_eq]

theorem dataFits_dataBytes (n : Width) (v : Word) : dataFits n (dataBytes n v) = true := by
  rw [dataFits, decide_eq_true_eq, dataBytes, BitVec.toNat_ofNat]
  exact lt_of_le_of_lt (Nat.mod_le _ _) (Nat.mod_lt _ (by positivity))

/-- Settles O1: the commands and register writes through the register's own decoder, the reads and the buffer accesses
by their forms. -/
theorem decodeEncodeRoundTrip : Obligations.DecodeEncodeRoundTrip := by
  intro i h
  cases i with
  | wRoReg r v => exact (decode_writeReg _ v).trans (decodeRegWrite_toReg r v)
  | rReg r => exact decode_readReg r 0
  | rBuf n off => exact decode_readBuf h 0
  | wBuf n off v =>
    obtain ⟨hb, hd⟩ := Bool.and_eq_true_iff.mp h
    rw [encode, decode_writeBuf hb, dataBytes_of_dataFits hd]
  | _ => exact decode_writeReg _ _

/-! ### The accesses that decode -/

/-- Every access that decodes has one of the four forms, with the instruction that form stands for. -/
theorem decode_ok_forms {a : Access} {i : Instr} (h : decode a = .ok i) :
    (∃ r d, a = ⟨.read, 4, r.offset, d⟩ ∧ i = .rReg r) ∨
    (∃ n off d, a = ⟨.read, n.bytes, off, d⟩ ∧ bufferForm n off = true ∧ i = .rBuf n off) ∨
    (∃ n off d, a = ⟨.write, n.bytes, off, d⟩ ∧ bufferForm n off = true ∧ i = .wBuf n off (dataBytes n d)) ∨
    ∃ r v, a = Access.writeReg r v ∧ decodeRegWrite r v = .ok i := by
  obtain ⟨dir, width, off, d⟩ := a
  have hf : dir ≠ .fetch := by
    rintro rfl
    cases h
  rcases offset_region off with hr | ⟨hr, hb⟩ | hb
  · by_cases hw : width = 4 ∧ off.toNat % 4 = 0
    · obtain ⟨rfl, ha⟩ := hw
      obtain ⟨r, ho⟩ := reg_at_aligned hr ha
      obtain rfl := reg_at_offset ho
      cases dir with
      | fetch => exact absurd rfl hf
      | read => exact .inl ⟨r, d, rfl, by cases (decode_readReg r d).symm.trans h; rfl⟩
      | write => exact .inr (.inr (.inr ⟨r, d, rfl, (decode_writeReg r d).symm.trans h⟩))
    · cases (decode_of_registerForm hf hr hw).symm.trans h
  · cases (decode_of_reserved hf hr hb).symm.trans h
  · obtain ⟨hnone, hsome⟩ := decode_of_bufBase_le (a := ⟨dir, width, off, d⟩) hf hb
    cases hn : Width.ofNat? width with
    | none => cases (hnone hn).symm.trans h
    | some n =>
      obtain rfl := width_bytes_of_ofNat? hn
      cases hform : bufferForm n off with
      | false => cases ((hsome n hn).1 hform).symm.trans h
      | true =>
        cases dir with
        | fetch => exact absurd rfl hf
        | read => exact .inr (.inl ⟨n, off, d, rfl, hform, by cases (decode_readBuf hform d).symm.trans h; rfl⟩)
        | write =>
          exact .inr (.inr (.inl ⟨n, off, d, rfl, hform, by cases (decode_writeBuf hform d).symm.trans h; rfl⟩))

/-- What a register write decodes to is well formed, and its access is that write. -/
theorem encode_of_decodeRegWrite {r : Reg} {v : Word} {i : Instr} (h : decodeRegWrite r v = .ok i) :
    i.wellFormed = true ∧ encode i = Access.writeReg r v := by
  cases r with
  | cmd =>
    rcases decodeCmd_ok h with ⟨rfl, rfl⟩ | ⟨rfl, rfl⟩ | ⟨rfl, rfl⟩ | ⟨rfl, rfl⟩ | ⟨rfl, rfl⟩ | ⟨rfl, rfl⟩ |
      ⟨rfl, rfl⟩ | ⟨rfl, rfl⟩ | ⟨rfl, rfl⟩ <;> exact ⟨rfl, rfl⟩
  | _ => cases h; exact ⟨rfl, rfl⟩

/-- Settles O2: in each form the data bits that the instruction leaves out are those that the canonical access clears. -/
theorem decodeGivesCanonicalEncoding : Obligations.DecodeGivesCanonicalEncoding := by
  intro a i h
  rcases decode_ok_forms h with ⟨r, d, rfl, rfl⟩ | ⟨n, off, d, rfl, hb, rfl⟩ | ⟨n, off, d, rfl, hb, rfl⟩ |
    ⟨r, v, rfl, hi⟩
  · exact ⟨rfl, rfl⟩
  · exact ⟨hb, rfl⟩
  · exact ⟨Bool.and_eq_true_iff.mpr ⟨hb, dataFits_dataBytes n d⟩, rfl⟩
  · rw [Laws.EncodeCanon.writeReg_canon]
    exact encode_of_decodeRegWrite hi

/-! ### The packed word of an access -/

theorem extractLsb'_toWord_off (a : Access) : a.toWord.extractLsb' 0 12 = a.off := by
  rw [Access.toWord, BitVec.extractLsb'_append_eq_right]

theorem extractLsb'_toWord_width (a : Access) :
    a.toWord.extractLsb' 12 2 = BitVec.ofNat 2 (packWidth a.width) := by
  rw [Access.toWord, BitVec.extractLsb'_append_eq_of_le (by decide), BitVec.extractLsb'_append_eq_right]

theorem getLsbD_toWord_read (a : Access) : a.toWord.getLsbD 14 = (a.dir == .read) := by
  simp only [Access.toWord, BitVec.getLsbD_append]
  simp

theorem getLsbD_toWord_fetch (a : Access) : a.toWord.getLsbD 15 = (a.dir == .fetch) := by
  simp only [Access.toWord, BitVec.getLsbD_append]
  simp

theorem extractLsb'_toWord_data (a : Access) : a.toWord.extractLsb' 16 32 = a.data := by
  rw [Access.toWord]
  iterate 4 rw [BitVec.extractLsb'_append_eq_of_le (by decide)]
  exact BitVec.extractLsb'_eq_self

theorem unpackDir_beq (d : AccessDir) : unpackDir (d == .read) (d == .fetch) = d := by
  cases d <;> rfl

theorem unpackWidth_packWidth (n : Width) : unpackWidth (BitVec.ofNat 2 (packWidth n.bytes)).toNat = n.bytes := by
  cases n <;> rfl

/-- An access of an accepted width is read back from its packed word. -/
theorem ofWord_toWord {a : Access} {n : Width} (h : a.width = n.bytes) : Access.ofWord a.toWord = a := by
  obtain ⟨dir, width, off, d⟩ := a
  obtain rfl : width = n.bytes := h
  simp only [Access.ofWord, extractLsb'_toWord_off, extractLsb'_toWord_width, getLsbD_toWord_read,
    getLsbD_toWord_fetch, extractLsb'_toWord_data, unpackDir_beq, unpackWidth_packWidth]

theorem encode_width (i : Instr) : ∃ n : Width, (encode i).width = n.bytes := by
  cases i with
  | rBuf n off => exact ⟨n, rfl⟩
  | wBuf n off v => exact ⟨n, rfl⟩
  | _ => exact ⟨.four, rfl⟩

theorem tableAccess_packed (w : BitVec 48) : tableAccess 48 w.toNat = Access.ofWord w := by
  rw [tableAccess, if_neg (by decide), Nat.mod_eq_of_lt w.isLt, BitVec.ofNat_toNat, BitVec.setWidth_eq]

/-- Settles O3: the packed word gives the access back, and the access the instruction. -/
theorem packedAccessGivesInstruction : Obligations.PackedAccessGivesInstruction := by
  intro i h
  obtain ⟨n, hn⟩ := encode_width i
  rw [decodeTableWord, tableAccess_packed, ofWord_toWord hn, decodeEncodeRoundTrip i h]
  rfl

/-- Settles O4: the words of R91 and the accesses of R94, by evaluation of the decoder. -/
theorem specWordsDecode : Obligations.SpecWordsDecode := by
  unfold Obligations.SpecWordsDecode
  decide

end Sys2Proof.Machine
end

section
/-! SUPPORT. The invariant of spec/10_state.md R24, clause by clause over the step cases: the buffer within its frame,
the bundle tied to IDLE, PREV_SEQ 0 without validity; O40 and O41. -/

namespace Sys2Proof.Machine

/-! ### The buffer -/

/-- A canonical memory with no cell at or above n. -/
def Memory.Fits (n : Nat) (m : Memory) : Prop := Memory.wf m = true ∧ ∀ i b, Memory.get m i = some b → i < n

theorem Memory.Fits.nil (n : Nat) : Memory.Fits n [] := ⟨rfl, nofun⟩

theorem Memory.Fits.setBytes {n i : Nat} {m : Memory} {bs : List Byte} (h : Memory.Fits n m)
    (hi : i + bs.length ≤ n) : Memory.Fits n (Memory.setBytes m i bs) := by
  obtain ⟨hwf, hinside⟩ := h
  refine ⟨Memory.wf_setBytes hwf i bs, fun j b hj => ?_⟩
  rw [Memory.get_setBytes] at hj
  split at hj
  · omega
  · exact hinside j b hj

/-- SEAL's two fields lie within the frame. -/
theorem Memory.Fits.sealBuf {c : Config} {m : Memory} (hc : c.admitted = true) (h : Memory.Fits c.n m)
    (F : List Byte) : Memory.Fits c.n (sealBuf c m F) := by
  obtain ⟨-, -, -, hcsum, hcrc⟩ := admitted_fields hc
  refine (h.setBytes ?_).setBytes ?_ <;> rw [length_orderedBytes] <;> omega

/-- No step writes the configuration. -/
theorem StepCase.cfg_eq {s t : State} {x : Input} (h : StepCase s x t) : t.cfg = s.cfg := by
  cases h with
  | _ => simp

/-- Every step leaves the buffer, empties it or writes cells of the frame. -/
theorem StepCase.fits {s t : State} {x : Input} (h : StepCase s x t) (hc : s.cfg.admitted = true)
    (hf : Memory.Fits s.cfg.n s.buf) : Memory.Fits s.cfg.n t.buf := by
  cases h with
  | sealFrame F ho hF hm => exact hf.sealBuf hc F
  | wBuf a n v hok =>
    obtain ⟨-, -, hend, -⟩ := bufferAccessOk_iff.mp hok
    exact hf.setBytes (by rw [length_leBytes]; exact hend)
  | t2Receive rx hx hd => exact (Memory.Fits.nil _).setBytes (by simp)
  | t3 hx =>
    rw [State.enterFatal_buf]
    split
    · exact Memory.Fits.nil _
    · exact hf
  | rst => exact Memory.Fits.nil _
  | _ => simpa using hf

/-! ### The bundle -/

/-- The owner is the CPU, and CS_N high, exactly in IDLE (R24). -/
def BundleIdle (s : State) : Prop := (s.owner = .cpu ↔ s.xstate = .idle) ∧ (s.csN = true ↔ s.xstate = .idle)

/-- The take leaves IDLE with all three elements, the end of the guard interval and reset return them; between, XSTATE
moves with the bundle held. -/
theorem StepCase.bundleIdle {s t : State} {x : Input} (h : StepCase s x t) (hb : BundleIdle s) : BundleIdle t := by
  cases h with
  | xferStart hx ho | t5 hx | rst => simp [BundleIdle]
  | t1 hx | t2Transmit rx F hx hd hF | t2Receive rx hx hd | t3 hx | t4 hx => simpa [BundleIdle, hx] using hb
  | _ => simpa [BundleIdle] using hb

/-! ### The tracker -/

/-- A rejection other than SEQ leaves PREV_SEQ. -/
theorem State.track_prevSeq {s : State} {r : Reason} {q : Word} (hr : r ≠ .ok) (hq : r ≠ .seq) :
    (s.track r q).prevSeq = s.prevSeq := by
  rw [State.track_rejected hr fun h => hq h.1]

/-- PREV_SEQ is 0 while PREV_VALID is 0 (R24). -/
theorem StepCase.prevZero {s t : State} {x : Input} (h : StepCase s x t)
    (hp : s.prevValid = false → s.prevSeq = 0) : t.prevValid = false → t.prevSeq = 0 := by
  cases h with
  | consume r q ho hv =>
    intro ht
    obtain ⟨hr, hpv⟩ : r ≠ .ok ∧ s.prevValid = false := by simpa [State.track_prevValid] using ht
    have hq : r ≠ .seq := by
      rintro rfl
      obtain ⟨hheld, -⟩ := validateBuf_seq hv
      simp [hpv] at hheld
    exact (State.track_prevSeq hr hq).trans (hp hpv)
  | sessionReset => exact fun _ => rfl
  | rst => exact fun _ => rfl
  | _ => simpa using hp

/-! ### The invariant -/

theorem Inv.of_inputs_draws {s : State} (h : Inv s) (rest : List Input) (d : Nat) :
    Inv { s with inputs := rest, draws := d } :=
  ⟨h.cfgAdmitted, h.bufWf, h.bufInside, h.ownerIdle, h.csIdle, h.prevZero⟩

theorem StepCase.inv {s t : State} {x : Input} (h : StepCase s x t) (hi : Inv s) : Inv t := by
  obtain ⟨hwf, hinside⟩ := h.fits hi.cfgAdmitted ⟨hi.bufWf, hi.bufInside⟩
  obtain ⟨howner, hcs⟩ := h.bundleIdle ⟨hi.ownerIdle, hi.csIdle⟩
  rw [← h.cfg_eq] at hinside
  exact ⟨h.cfg_eq ▸ hi.cfgAdmitted, hwf, hinside, howner, hcs, h.prevZero hi.prevZero⟩

/-- Settles O40: the step cases keep each clause of the invariant. -/
theorem invariantKept : Obligations.InvariantKept := by
  intro s t hi h
  obtain ⟨rest, d, hc⟩ := step_case h
  exact hc.inv (hi.of_inputs_draws rest d)

theorem inv_init {c : Config} (h : c.admitted = true) : Inv (State.init c) where
  cfgAdmitted := h
  bufWf       := rfl
  bufInside   := nofun
  ownerIdle   := iff_of_true rfl rfl
  csIdle      := iff_of_true rfl rfl
  prevZero    := fun _ => rfl

/-- Settles O41: the clauses of the invariant on the reset values, and REF as an admitted configuration. -/
theorem invariantAtReset : Obligations.InvariantAtReset := ⟨fun _ => inv_init, inv_init (by decide)⟩

end Sys2Proof.Machine
end

section
/-! SUPPORT. A CPU access while the DMA owns the bundle (spec/20_memory.md R64, spec/60_exceptions.md R273): what each
instruction and each rejection answers does not depend on BUF, and O43. -/

namespace Sys2Proof.Machine

/-- The meaning answers a next state, the same but for BUF whatever BUF holds, and leaves BUF. -/
def IgnoresBuf (f : State → Result) (s : State) : Prop := ∃ t : State, ∀ m, f (s.setBuf m) = .next (t.setBuf m)

/-- One error for every content of BUF. -/
theorem ignoresBuf_of_failsWith {i : Instr} {s : State} {e : CmdErr} (h : ∀ m, FailsWith i (s.setBuf m) e) :
    IgnoresBuf (exec i) s := ⟨s.cmdError e, h⟩

/-- The gate refuses the commands that need the bundle before they read BUF. -/
theorem ignoresBuf_of_bundleCommand {i : Instr} (h : i ∈ bundleCommands) {s : State} (ho : s.owner = .dma) :
    IgnoresBuf (exec i) s := by
  by_cases hx : s.xstate = .fatal
  · exact ignoresBuf_of_failsWith fun m => (bundleGate_of_mem h).1 (s.setBuf m) hx
  · exact ignoresBuf_of_failsWith fun m => (bundleGate_of_mem h).2 (s.setBuf m) hx ho

theorem ignoresBuf_sessionReset (s : State) : IgnoresBuf (exec .sessionReset) s := by
  by_cases hx : s.xstate = .fatal
  · exact ignoresBuf_of_failsWith fun m => failsWith_sessionReset hx
  · exact ⟨{ s with prevValid := false, prevSeq := 0, resp := .accepted },
      fun m => exec_sessionReset_of_not_fatal hx⟩

theorem ignoresBuf_clearErrs (s : State) : IgnoresBuf (exec .clearErrs) s := by
  by_cases hx : s.xstate = .fatal
  · exact ignoresBuf_of_failsWith fun m => failsWith_clearErrs hx
  · exact ⟨{ s with errCount := 0, cmdErr := .none, ownErr := false, resp := .accepted },
      fun m => exec_clearErrs_of_not_fatal hx⟩

theorem ignoresBuf_wCtrl (v : Word) (s : State) : IgnoresBuf (exec (.wCtrl v)) s := by
  by_cases hx : s.xstate = .idle
  · exact ⟨{ s with dir := Direction.ofBit (v.getLsbD 0), resp := .accepted },
      fun m => exec_wCtrl_of_idle (s := s.setBuf m) hx v⟩
  · exact ignoresBuf_of_failsWith fun m => exec_wCtrl_of_not_idle (s := s.setBuf m) hx v

/-- No register shows BUF. -/
theorem readReg_setBuf (s : State) (m : Memory) (r : Reg) : readReg (s.setBuf m) r = readReg s r := by
  cases r <;> rfl

theorem bufferAccessOk_of_dma {s : State} (ho : s.owner = .dma) (n : Width) (off : Offset) :
    bufferAccessOk s n off = false := by
  simp [bufferAccessOk, ho]

theorem exec_rBuf_of_dma {s : State} (ho : s.owner = .dma) (n : Width) (off : Offset) :
    exec (.rBuf n off) s = .next (s.busError off) :=
  (exec_rBuf n off s).trans (bufferAccess_of_not_ok (bufferAccessOk_of_dma ho n off) _)

theorem exec_wBuf_of_dma {s : State} (ho : s.owner = .dma) (n : Width) (off : Offset) (v : Word) :
    exec (.wBuf n off v) s = .next (s.busError off) :=
  (exec_wBuf n off v s).trans (bufferAccess_of_not_ok (bufferAccessOk_of_dma ho n off) _)

/-- While the DMA owns the bundle no instruction depends on BUF or writes it. -/
theorem exec_ignoresBuf (i : Instr) {s : State} (ho : s.owner = .dma) : IgnoresBuf (exec i) s := by
  cases i with
  | csum | crc | sealFrame | validate | consume | xferStart => exact ignoresBuf_of_bundleCommand (by decide) ho
  | sessionReset => exact ignoresBuf_sessionReset s
  | clearErrs => exact ignoresBuf_clearErrs s
  | wCtrl v => exact ignoresBuf_wCtrl v s
  | rReg r =>
    refine ⟨s.reply (.value (readReg s r)), fun m => ?_⟩
    rw [exec_rReg, readReg_setBuf]
    rfl
  | rBuf n off => exact ⟨s.busError off, fun m => exec_rBuf_of_dma (s := s.setBuf m) ho n off⟩
  | wBuf n off v => exact ⟨s.busError off, fun m => exec_wBuf_of_dma (s := s.setBuf m) ho n off v⟩
  | nop | wRoReg r v => exact ⟨s.reply .accepted, fun m => rfl⟩
  | wIrqStatus v =>
    exact ⟨{ s with irqStatus := s.irqStatus &&& ~~~ (v.setWidth 2), resp := .accepted }, fun m => rfl⟩
  | wIrqEnable v => exact ⟨{ s with irqEnable := v.setWidth 2, resp := .accepted }, fun m => rfl⟩
  | wLen v => exact ⟨{ s with len := v.setWidth 16, resp := .accepted }, fun m => rfl⟩

theorem rejectAccess_setBuf (r : Reject) (a : Access) (s : State) (m : Memory) :
    rejectAccess r a (s.setBuf m) = (rejectAccess r a s).setBuf m := by
  cases r <;> rfl

theorem performAccess_ignoresBuf (a : Access) {s : State} (ho : s.owner = .dma) : IgnoresBuf (performAccess a) s := by
  cases hd : decode a with
  | ok i =>
    obtain ⟨t, ht⟩ := exec_ignoresBuf i ho
    exact ⟨t, fun m => (performAccess_of_ok hd _).trans (ht m)⟩
  | error r =>
    exact ⟨rejectAccess r a s, fun m => (performAccess_of_error hd _).trans (congrArg _ (rejectAccess_setBuf r a s m))⟩

/-- Settles O43: the step performs the access, which ignores BUF. -/
theorem ownedBufferIsIsolatedFromCpu : Obligations.OwnedBufferIsIsolatedFromCpu := by
  intro s m a rest hc ho hi
  obtain ⟨t, ht⟩ := performAccess_ignoresBuf a (s := { s with inputs := rest }) ho
  exact ⟨t.setBuf s.buf, (step_cons hc hi).trans (ht s.buf), rfl,
    (step_cons (s := { s with buf := m }) hc hi).trans (ht m)⟩

end Sys2Proof.Machine
end

section
/-! SUPPORT. Validation and SEAL of a partly written buffer (notes/assumptions/8.md, 9.md): the early outcomes of
Validate, what CONSUME does with them, and O16. -/

namespace Sys2Proof.Machine

theorem exec_consume_of_none {s : State} (hg : GateOpen s) (h : validateBuf s = none) :
    exec .consume s = .fault .unwrittenByte := by
  rw [exec_consume, gate_of_open hg, withOutcome, h]

/-- A wrong preamble or trailer needs no other byte. -/
theorem validateBuf_of_wrong_ends {s : State} {p t : List Byte} (hp : Holds s 0 s.cfg.preLen p)
    (ht : Holds s (s.cfg.n - s.cfg.trlLen) s.cfg.trlLen t) (h : p ≠ s.cfg.preamble ∨ t ≠ s.cfg.trailer) :
    validateBuf s = some (.struct, 0) := by
  simp [validateBuf, holds_iff.mp hp, holds_iff.mp ht, h]

/-- A stale sequence needs no byte beyond its field. -/
theorem validateBuf_of_stale {s : State} {b : List Byte} {q : Word} (hp : Holds s 0 s.cfg.preLen s.cfg.preamble)
    (ht : Holds s (s.cfg.n - s.cfg.trlLen) s.cfg.trlLen s.cfg.trailer) (hb : Holds s s.cfg.offSeq 4 b)
    (hq : q.toNat = orderedNat s.cfg.hdrOrder b) (hpv : s.prevValid = true) (hle : ¬ s.prevSeq.toNat < q.toNat) :
    validateBuf s = some (.seq, q) := by
  have hseq : BitVec.ofNat 32 (orderedNat s.cfg.hdrOrder b) = q := by
    rw [← hq, BitVec.ofNat_toNat, BitVec.setWidth_eq]
  simp [validateBuf, holds_iff.mp hp, holds_iff.mp ht, holds_iff.mp hb, hseq, staleSeq_iff.mpr ⟨hpv, hle⟩]

/-- A rejection that is not retrograde: recorded by VALIDATE, and recorded and tallied by CONSUME. -/
theorem exec_validate_consume_of_rejected {s : State} {r : Reason} {q : Word} (hg : GateOpen s)
    (hv : validateBuf s = some (r, q)) (hr : r ≠ .ok) (hn : ¬ (r = .seq ∧ q.toNat < s.prevSeq.toNat)) :
    exec .validate s = .next (recorded s r q) ∧
      exec .consume s = .next { recorded s r q with errCount := satInc s.errCount } :=
  ⟨exec_validate_of_some hg hv,
    (exec_consume_of_some hg hv).trans (congrArg _ (State.track_rejected (s := recorded s r q) hr hn))⟩

/-- Settles O16: the ends read first, the early outcomes recorded and tallied, and SEAL's reading of the whole buffer. -/
theorem unwrittenByteChoices : Obligations.UnwrittenByteChoices := by
  refine ⟨fun s hg hu => ?_, fun s p t hg hp ht hne => ?_, fun s b q hg hp ht hb hq hpv => ⟨fun hlt => ?_, fun heq => ?_⟩,
    fun s => exec_sealFrame_of_unwritten⟩
  · have hv := validateBuf_of_unwritten_ends hu
    exact ⟨exec_validate_of_none hg hv, exec_consume_of_none hg hv⟩
  · exact exec_validate_consume_of_rejected hg (validateBuf_of_wrong_ends hp ht hne) nofun nofun
  · have hv := validateBuf_of_stale hp ht hb hq hpv hlt.not_gt
    exact ⟨exec_validate_of_some hg hv,
      (exec_consume_of_some hg hv).trans (congrArg _ (State.track_retrograde (s := recorded s .seq q) hlt))⟩
  · have hn : ¬ s.prevSeq.toNat < q.toNat := heq ▸ lt_irrefl _
    have hn' : ¬ q.toNat < s.prevSeq.toNat := heq ▸ lt_irrefl _
    exact exec_validate_consume_of_rejected hg (validateBuf_of_stale hp ht hb hq hpv hn) nofun fun h => hn' h.2

end Sys2Proof.Machine
end

section
/-! SUPPORT. A bundle that is held: no step but a give-back returns it (spec/20_memory.md section 5), FATAL freezes it
and its buffer (spec/60_exceptions.md section 3), and O22 and O39. -/

namespace Sys2Proof.Machine

/-- A take behind a held bundle fails. -/
theorem failsWith_xferStart_busy {s : State} (hx : s.xstate ≠ .fatal) (ho : s.owner = .dma) :
    FailsWith .xferStart s .busy := (exec_xferStart s).trans (gate_busy hx ho)

theorem owner_dma_of_not_givesBack {s t : State} (h : step s = .next t) (hg : ¬ GivesBack s) (ho : s.owner = .dma) :
    t.owner = .dma := by
  obtain ⟨rest, d, hc⟩ := step_case h
  rcases hc.bundle_cases with ⟨-, hto⟩ | ⟨-, -, hto⟩ | ⟨hx, hguard, -⟩ | ⟨hx, -⟩
  · exact hto.trans ho
  · exact hto
  · exact absurd (.inr ⟨hx, hguard⟩) hg
  · exact absurd (.inl hx) hg

theorem RunWithoutGive.owner_dma {s u : State} (h : RunWithoutGive s u) (ho : s.owner = .dma) : u.owner = .dma := by
  induction h with
  | here => exact ho
  | next _ hs hg ih => exact owner_dma_of_not_givesBack hs hg ih

/-- Settles O22: the bundle stays held along the run, and the gate refuses a take of a held bundle. -/
theorem secondTakeFails : Obligations.SecondTakeFails := by
  refine ⟨fun s t hg h => ?_, fun s u ho hrun => ?_⟩
  · cases (exec_xferStart_of_open hg).symm.trans h
    exact ⟨rfl, failsWith_xferStart_busy XState.noConfusion rfl⟩
  · have huo := hrun.owner_dma ho
    exact ⟨huo, fun hx => (exec_xferStart u).trans (gate_fatal hx), fun hx => failsWith_xferStart_busy hx huo⟩

/-- In FATAL nothing but reset writes OWNER or CS_N. -/
theorem StepCase.bundle_of_fatal {s t : State} {x : Input} (h : StepCase s x t) (hx : x ≠ .rst)
    (hs : s.xstate = .fatal) : t.owner = s.owner ∧ t.csN = s.csN := by
  cases h with
  | xferStart hn ho => exact absurd hs hn
  | t5 hg => exact absurd (hs.symm.trans hg) XState.noConfusion
  | rst => exact absurd rfl hx
  | _ => simp

/-- While the DMA owns the bundle only a transfer's end and reset write BUF. -/
theorem StepCase.buf_of_dma {s t : State} {x : Input} (h : StepCase s x t) (hx : x ≠ .rst)
    (hs : s.xstate ≠ .transferring) (ho : s.owner ≠ .cpu) : t.buf = s.buf := by
  cases h with
  | sealFrame F hcpu => exact absurd hcpu ho
  | wBuf a n v hok =>
    obtain ⟨-, -, -, hcpu⟩ := bufferAccessOk_iff.mp hok
    exact absurd hcpu ho
  | t2Receive rx ht | t3 ht => exact absurd ht hs
  | rst => exact absurd rfl hx
  | _ => simp

/-- Settles O39: XSTATE by R181's table, the bundle and the frozen buffer from the step cases. -/
theorem fatalIsTerminal : Obligations.FatalIsTerminal := by
  intro s t hs h hx
  obtain ⟨rest, d, hc⟩ := step_case h
  obtain ⟨howner, hcs⟩ := hc.bundle_of_fatal hx hs
  exact ⟨hc.xstate_of_fatal hx hs, howner, hcs, fun ho => hc.buf_of_dma hx (by simp [hs]) (by simp [ho])⟩

end Sys2Proof.Machine
end

section
/-! SUPPORT. Who writes RESULT (spec/10_state.md section 2), and O51. -/

namespace Sys2Proof.Machine

/-- RESULT stays, or one of the command words 1 to 5 writes it and leaves CMD_ERR, or reset clears it. -/
theorem StepCase.result_cases {s t : State} {x : Input} (h : StepCase s x t) :
    t.result = s.result ∨
    ((∃ k : Nat, 1 ≤ k ∧ k ≤ 5 ∧ x = .bus (Access.command (BitVec.ofNat 32 k))) ∧ t.cmdErr = s.cmdErr) ∨
    x = .rst := by
  cases h with
  | csumCrc k v hk ho =>
    rcases hk with rfl | rfl
    · exact .inr (.inl ⟨⟨1, by decide, by decide, rfl⟩, rfl⟩)
    · exact .inr (.inl ⟨⟨2, by decide, by decide, rfl⟩, rfl⟩)
  | sealFrame F ho hF hm => exact .inr (.inl ⟨⟨3, by decide, by decide, rfl⟩, rfl⟩)
  | validate r q ho hv => exact .inr (.inl ⟨⟨4, by decide, by decide, rfl⟩, rfl⟩)
  | consume r q ho hv => exact .inr (.inl ⟨⟨5, by decide, by decide, rfl⟩, by simp⟩)
  | rst => exact .inr (.inr rfl)
  | _ => exact .inl (by simp)

/-- Settles O51: the step cases that write RESULT. -/
theorem resultWriters : Obligations.ResultWriters := by
  intro s t h hne
  obtain ⟨rest, d, hc⟩ := step_case h
  exact hc.result_cases.resolve_left hne

end Sys2Proof.Machine
end

section
/-! SUPPORT. The step as the performance of its input (spec/00_scope.md R17), the gate's order
(spec/60_exceptions.md section 2), the events that XSTATE does not enable (notes/assumptions/6.md), and O6, O9 and
O36. -/

namespace Sys2Proof.Machine

/-- With no input listed the step performs a free one, and counts its draw. -/
theorem step_nil {s : State} (h : s.cfg.admitted = true) (hi : s.inputs = []) :
    step s = perform (Config.freeInput s.draws) { s with draws := s.draws + 1 } := by
  rw [step_of_admitted h, nextInput, hi]

/-- Settles O6: a listed input, a listed access that decodes, and the free input. -/
theorem stepRunsDecodedInstruction : Obligations.StepRunsDecodedInstruction :=
  ⟨fun _ _ _ _ hc hi hd => (step_cons hc hi).trans (performAccess_of_ok hd _), fun _ _ _ => step_cons,
    fun _ => step_nil⟩

/-- Settles O9: the gate on R91's two classes, and NOP without a gate. -/
theorem gatePrecedence : Obligations.GatePrecedence :=
  ⟨fun _ hi _ => failsWith_fatal_of_mem hi, fun _ hi => (bundleGate_of_mem hi).2, exec_nop⟩

/-- Settles O36: each event's own check of XSTATE. -/
theorem disabledEventChangesNothing : Obligations.DisabledEventChangesNothing := fun _ =>
  ⟨fun h => if_neg h, fun h => ⟨fun _ => if_neg h, if_neg h⟩, fun h => if_neg h, fun h => if_neg h⟩

end Sys2Proof.Machine
end
